-- ==== Sys2Proof/Word.lean ====
section
/-! DEFINITION. The widths of CORE (spec/00_scope.md R7, R12): a byte is 8 bits, a word 16. -/

namespace Sys2Proof

/-- A general register, F, or a byte of Memory: `XLEN8` = 8 (00_scope R7). -/
abbrev Byte := BitVec 8

/-- SP, PC, a pair or an address: `XLEN16` = 16 (00_scope R7). -/
abbrev Word := BitVec 16

/-- `{hi, lo}`, that is `(hi << 8) | lo` (00_scope R12, 10_state R24). -/
def Word.ofBytes (hi lo : Byte) : Word := hi.setWidth 16 <<< 8 ||| lo.setWidth 16

/-- `w[15:8]` (00_scope R12). -/
def Word.high (w : Word) : Byte := w.extractLsb' 8 8

/-- `w[7:0]` (00_scope R12). -/
def Word.low (w : Word) : Byte := w.extractLsb' 0 8

end Sys2Proof
end

