-- ==== Sys2Proof/Config.lean ====
section
/-! DEFINITION. What is fixed for one machine (spec/00_scope.md R7), each parameter a field, and the one value the spec
leaves OPEN. -/

namespace Sys2Proof

/-- `FLAG_POS` (00_scope R7): the bits of F that hold Z, N, H, C. -/
structure FlagPos where
  z : Nat
  n : Nat
  h : Nat
  c : Nat
deriving DecidableEq, Repr

/-- `IMM16_ORDER` (00_scope R7): which byte of a two-byte immediate comes first. -/
inductive ByteOrder where
  | lowFirst | highFirst
deriving DecidableEq, Repr

/-- `RESET_REGS` (00_scope R7): the registers after construction. -/
structure ResetRegs where
  a : Byte
  b : Byte
  c : Byte
  d : Byte
  e : Byte
  h : Byte
  l : Byte
  f : Byte
  sp : Word
  pc : Word
deriving DecidableEq, Repr

/-- The parameters of 00_scope R7, so that a claim can name the values it holds under. `XLEN8` and `XLEN16`, fixed by the
document, are the widths of `Byte` and `Word`; `FIRMWARE` is the argument of `construct`. -/
structure Config where
  /-- `MEM_SIZE`: 65536 decided, 65535 admissible (log entry 1). -/
  memSize : Nat
  /-- `FLAG_POS` (log entry 2). -/
  flagPos : FlagPos
  /-- `MODELLED_PRIMARY`: the primary opcode values with a decoder entry, a set (log entry 4). -/
  modelledPrimary : List Byte
  /-- `MODELLED_CB`: the sub-opcode values after 0xCB with a handler, a set (log entry 4). -/
  modelledCb : List Byte
  /-- `IMM16_ORDER` (log entry 5). -/
  imm16Order : ByteOrder
  /-- `RESET_REGS` (log entry 6). -/
  resetRegs : ResetRegs
deriving DecidableEq, Repr

/-- Z = 7, N = 6, H = 5, C = 4 (92_eei_decisions D2; log entry 2: PRESUMED, unsafe). -/
def FlagPos.decided : FlagPos := { z := 7, n := 6, h := 5, c := 4 }

/-- The 131 values of 30_encoding R86, one line a row of its table, and 0xCB (92_eei_decisions D3, D4; log entries 3
and 4). -/
def Config.decidedPrimary : List Byte :=
  [0x01, 0x02, 0x03, 0x04, 0x05, 0x06, 0x0A, 0x0C, 0x0D, 0x0E]
  ++ [0x11, 0x12, 0x13, 0x14, 0x15, 0x16, 0x17, 0x18, 0x1A, 0x1C, 0x1D, 0x1E]
  ++ [0x20, 0x21, 0x22, 0x23, 0x24, 0x25, 0x26, 0x28, 0x2A, 0x2C, 0x2D, 0x2E]
  ++ [0x30, 0x31, 0x32, 0x33, 0x38, 0x3A, 0x3C, 0x3D, 0x3E]
  ++ [0x40, 0x41, 0x42, 0x43, 0x44, 0x45, 0x46, 0x47, 0x48, 0x49, 0x4A, 0x4B, 0x4C, 0x4D, 0x4E, 0x4F]
  ++ [0x50, 0x51, 0x52, 0x53, 0x54, 0x55, 0x56, 0x57, 0x58, 0x59, 0x5A, 0x5B, 0x5C, 0x5D, 0x5E, 0x5F]
  ++ [0x60, 0x61, 0x62, 0x63, 0x64, 0x65, 0x66, 0x67, 0x68, 0x69, 0x6A, 0x6B, 0x6C, 0x6D, 0x6E, 0x6F]
  ++ [0x70, 0x71, 0x72, 0x73, 0x74, 0x75, 0x77, 0x78, 0x79, 0x7A, 0x7B, 0x7C, 0x7D, 0x7E, 0x7F]
  ++ [0xA8, 0xA9, 0xAA, 0xAB, 0xAC, 0xAD, 0xAF]
  ++ [0xC1, 0xC3, 0xC5, 0xC9, 0xCB, 0xCD]
  ++ [0xD1, 0xD5]
  ++ [0xE0, 0xE1, 0xE2, 0xE5, 0xEA]
  ++ [0xF0, 0xF1, 0xF2, 0xF5, 0xFA, 0xFE]

/-- The 63 values of 30_encoding R87 (92_eei_decisions D3, D4; log entries 3 and 4). -/
def Config.decidedCb : List Byte :=
  [0x10, 0x11, 0x12, 0x13, 0x14, 0x15, 0x17]
  ++ [0x40, 0x41, 0x42, 0x43, 0x44, 0x45, 0x47, 0x48, 0x49, 0x4A, 0x4B, 0x4C, 0x4D, 0x4F]
  ++ [0x50, 0x51, 0x52, 0x53, 0x54, 0x55, 0x57, 0x58, 0x59, 0x5A, 0x5B, 0x5C, 0x5D, 0x5F]
  ++ [0x60, 0x61, 0x62, 0x63, 0x64, 0x65, 0x67, 0x68, 0x69, 0x6A, 0x6B, 0x6C, 0x6D, 0x6F]
  ++ [0x70, 0x71, 0x72, 0x73, 0x74, 0x75, 0x77, 0x78, 0x79, 0x7A, 0x7B, 0x7C, 0x7D, 0x7F]

/-- All registers zero. DESIGN CHOICE, the spec's decision D6 (log entry 6): unsafe. -/
def ResetRegs.zero : ResetRegs :=
  { a := 0, b := 0, c := 0, d := 0, e := 0, h := 0, l := 0, f := 0, sp := 0, pc := 0 }

/-- The decided values of 00_scope R7 (log entries 1 to 6: unsafe). The fixed machine `Machine.step` runs under them. -/
def Config.decided : Config :=
  { memSize := 65536, flagPos := FlagPos.decided, modelledPrimary := Config.decidedPrimary,
    modelledCb := Config.decidedCb, imm16Order := .lowFirst, resetRegs := ResetRegs.zero }

/-- The other admissible reading of the size: `MEM_SIZE` = 65535, under which address 0xFFFF does not exist
(90_conflicts C2). -/
def Config.small : Config := { Config.decided with memSize := 65535 }

/-- `DEFAULT_FIRMWARE`, OPEN (92_eei_decisions D19; log entry 12): the image of a construction that names none.
A free value: it has no body, and no step uses it. -/
opaque Config.defaultFirmware : List Byte

end Sys2Proof
end

