-- ==== Sys2Proof/Form.lean ====
section
/-! DEFINITION. The operand classes and the 34 instruction forms of spec/30_encoding.md R83, R86, R87:
a form is "a mnemonic with its operand classes" (00_scope R19). The table's rows are `Instr` (Syntax.lean). -/

namespace Sys2Proof

/-- The seven 8-bit general registers, the operand class r (10_state R21). -/
inductive Reg8 where
  | b | c | d | e | h | l | a
deriving DecidableEq, Repr

/-- The operand class rr of `LD rr,nn` and `INC rr` (30_encoding R83). -/
inductive Reg16 where
  | bc | de | hl | sp
deriving DecidableEq, Repr

/-- The register pairs (10_state R24), the operand class rr of `PUSH` and `POP`. -/
inductive Pair where
  | bc | de | hl | af
deriving DecidableEq, Repr

/-- The branch conditions cc (45_control R185). -/
inductive Cond where
  | nz | z | nc | c
deriving DecidableEq, Repr

/-- The instruction forms, with their operands resolved (10_state R34). -/
inductive Form where
  | incR (r : Reg8)                 -- INC r            R110
  | decR (r : Reg8)                 -- DEC r            R111
  | incRr (rr : Reg16)              -- INC rr           R112
  | xorR (r : Reg8)                 -- XOR r            R120
  | cpN (n : Byte)                  -- CP n             R121
  | bitBR (b : Fin 8) (r : Reg8)    -- BIT b,r          R130
  | rla                             -- RLA              R131
  | rlR (r : Reg8)                  -- RL r             R132
  | ldRR (dst src : Reg8)            -- LD r,r'          R140
  | ldRN (r : Reg8) (n : Byte)      -- LD r,n           R141
  | ldRrNn (rr : Reg16) (nn : Word) -- LD rr,nn         R142
  | ldRAtHl (r : Reg8)              -- LD r,(HL)        R143
  | ldAtHlR (r : Reg8)              -- LD (HL),r        R144
  | ldAAtBc                         -- LD A,(BC)        R145
  | ldAAtDe                         -- LD A,(DE)        R146
  | ldAtBcA                         -- LD (BC),A        R147
  | ldAtDeA                         -- LD (DE),A        R148
  | ldAtHlIncA                      -- LD (HL+),A       R149
  | ldAAtHlInc                      -- LD A,(HL+)       R150
  | ldAtHlDecA                      -- LD (HL-),A       R151
  | ldAAtHlDec                      -- LD A,(HL-)       R152
  | ldhAtNA (n : Byte)              -- LDH (n),A        R153
  | ldhAAtN (n : Byte)              -- LDH A,(n)        R154
  | ldAtCA                          -- LD (C),A         R155
  | ldAAtC                          -- LD A,(C)         R156
  | ldAtNnA (nn : Word)             -- LD (nn),A        R157
  | ldAAtNn (nn : Word)             -- LD A,(nn)        R158
  | push (p : Pair)                 -- PUSH rr          R172
  | pop (p : Pair)                  -- POP rr           R173
  | call (nn : Word)                -- CALL nn          R180
  | ret                             -- RET              R181
  | jrCc (cc : Cond) (e : Byte)     -- JR cc,e          R182
  | jr (e : Byte)                   -- JR e             R183
  | jp (nn : Word)                  -- JP nn            R184
deriving DecidableEq, Repr

end Sys2Proof
end

