-- ==== Sys2Proof/Machine/State.lean ====
section
/-! DEFINITION. The state of CORE, "exactly this, and nothing else" (spec/10_state.md R20), as plain data. -/

namespace Sys2Proof.Machine

/-- Memory: the bytes that are not 0x00, by address, addresses strictly rising (20_memory R50, R51). -/
abbrev Memory := List Host.Cell

/-- The run state RUN (10_state R33). All but `fetching` are terminal. -/
inductive RunState where
  /-- PC valid, awaiting decode. -/
  | fetching
  /-- The primary table has no entry: the opcode and its address. -/
  | unknownOpcode (op : Byte) (addr : Word)
  /-- 0xCB and no entry in the secondary table: the sub-opcode and the address of the 0xCB byte. -/
  | unimplementedOpcode (sub : Byte) (addr : Word)
  /-- PC at or beyond `MEM_SIZE`. -/
  | halted
  /-- An access outside 0 to `MEM_SIZE` - 1: the offending integer address, which may be -1 or exceed 65535. -/
  | faulted (addr : Int)
deriving DecidableEq, Repr

/-- The registers, the run state and Memory. -/
structure State where
  a : Byte
  b : Byte
  c : Byte
  d : Byte
  e : Byte
  h : Byte
  l : Byte
  /-- F: Z, N, H, C in bits 7 to 4, bits 3 to 0 always zero (10_state R26, R27). -/
  f : Byte
  sp : Word
  pc : Word
  run : RunState
  mem : Memory
deriving DecidableEq, Repr

/-- No step stops the machine outside its own state: each of the four events of 60_exceptions R190 is a next state whose
`run` is terminal (log entry 7), so there is no fault reason. -/
inductive Fault where
deriving DecidableEq, Repr

/-- Why the machine, or the host's control surface, refuses. No arm of `exec` and no step answers a refusal. -/
inductive Refusal where
  /-- An instruction without a meaning yet: raised by no arm of `exec` (safe). -/
  | notModelled (mnemonic : String)
  /-- `construct` of an image longer than `MEM_SIZE` (70_reset_and_hazards R221, 92_eei_decisions D15): raised by
  `construct`; no machine is built (safe). -/
  | imageTooLong (length : Nat)
  /-- The host applies what `next` did not return (00_scope R11, 93_implementation_defined U13): raised by `hostApply`
  (safe). -/
  | notPending
deriving DecidableEq, Repr

/-- The outcome of an instruction, of a step, of a host operation. -/
abbrev Result := Host.Outcome State Fault Refusal

/-- Right after reset: PC 0x0000 and RUN Fetching, every other register 0x00 (10_state R36; the spec's decision D6; log
entry 6, DESIGN CHOICE, unsafe), Memory all zero because no image is placed in it (20_memory R51; log entry 11). -/
def State.reset : State :=
  { a := 0, b := 0, c := 0, d := 0, e := 0, h := 0, l := 0, f := 0, sp := 0, pc := 0, run := .fetching, mem := [] }

end Sys2Proof.Machine
end

