-- ==== Sys2Proof/Machine/Memory.lean ====
section
/-! DEFINITION. Memory as a canonical list of cells (spec/20_memory.md R50, R51, R61). -/

namespace Sys2Proof.Machine

/-- What an unlisted address reads as: indices beyond the firmware are zero-initialized (20_memory R51). -/
def Memory.unlisted : Byte := 0

/-- The byte at an address. -/
def Memory.read : Memory → Nat → Byte
  | [], _ => Memory.unlisted
  | (k, v) :: rest, addr => if k = addr then v else Memory.read rest addr

/-- A cell in front of a memory, unless it holds what an unlisted address reads as. -/
def Memory.cell (addr : Nat) (v : Byte) (rest : Memory) : Memory :=
  if v = Memory.unlisted then rest else (addr, v) :: rest

/-- The memory with one byte written, the canonical form kept. -/
def Memory.write : Memory → Nat → Byte → Memory
  | [], addr, v => Memory.cell addr v []
  | (k, w) :: rest, addr, v =>
    if addr < k then Memory.cell addr v ((k, w) :: rest)
    else if addr = k then Memory.cell addr v rest
    else (k, w) :: Memory.write rest addr v

/-- The canonical form: addresses strictly rising, no entry equal to what an unlisted address reads as. -/
abbrev Memory.wf (m : Memory) : Prop :=
  m.Pairwise (fun x y => x.1 < y.1) ∧ ∀ x ∈ m, x.2 ≠ Memory.unlisted

/-- Every listed address exists: it is below `MEM_SIZE` (20_memory R50). -/
abbrev Memory.within (size : Nat) (m : Memory) : Prop := ∀ x ∈ m, x.1 < size

/-- An image laid out from an address upward, verbatim (70_reset_and_hazards R221, R222). -/
def Memory.image : Nat → List Byte → Memory
  | _, [] => []
  | addr, v :: rest => Memory.cell addr v (Memory.image (addr + 1) rest)

end Sys2Proof.Machine
end

