-- ==== Sys2Proof/Machine/Flags.lean ====
section
/-! DEFINITION. The flag register F and every flag computation (spec/10_state.md R26 to R28). -/

namespace Sys2Proof.Machine

/-- The four flags. -/
inductive Flag where
  | z | n | h | c
deriving DecidableEq, Repr

/-- A flag's place in F under `FLAG_POS` (10_state R26). -/
def Flag.pos (p : FlagPos) : Flag → Nat
  | .z => p.z | .n => p.n | .h => p.h | .c => p.c

/-- `flag[x]` under `FLAG_POS`: one bit of F. -/
def State.flagAt (s : State) (p : FlagPos) (x : Flag) : Bool := s.f.getLsbD (x.pos p)

/-- `flag[x]` of the decided machine: Z = 7, N = 6, H = 5, C = 4 (10_state R26, the spec's decision D2; log entry 2). -/
abbrev State.flag (s : State) (x : Flag) : Bool := s.flagAt FlagPos.decided x

/-- Every write of F is `x[F] <- v & 0xF0` (10_state R27). -/
def State.setF (s : State) (v : Byte) : State := { s with f := v &&& 0xF0 }

/-- One bit at a flag's place. -/
def Flag.bit (p : FlagPos) (x : Flag) (b : Bool) : Byte := (BitVec.ofBool b).setWidth 8 <<< x.pos p

/-- The four flags as the byte F, low nibble zero. -/
def packFlags (p : FlagPos) (z n h c : Bool) : Byte :=
  Flag.z.bit p z ||| Flag.n.bit p n ||| Flag.h.bit p h ||| Flag.c.bit p c

/-- All four flags written. An instruction that leaves a flag passes its old value. -/
def State.setFlags (s : State) (p : FlagPos) (z n h c : Bool) : State := s.setF (packFlags p z n h c)

/-- `flag[x] <- b` writes that one bit and no other (00_scope R14). -/
def State.setFlag (s : State) (p : FlagPos) (x : Flag) (b : Bool) : State :=
  s.setF ((s.f &&& ~~~(x.bit p true)) ||| x.bit p b)

/-- Z: the result is zero. -/
def isZero (v : Byte) : Bool := decide (v = 0)

/-- H of `INC r`, the carry out of bit 3: (old & 0x0F) + 1 > 0x0F (40_inc_dec R110). -/
def halfCarryInc (old : Byte) : Bool := decide ((old &&& 0x0F).toNat + 1 > 0x0F)

/-- H of `DEC r`, the borrow into bit 4: (old & 0x0F) < 1 (40_inc_dec R111; the spec's decision D21; log entry 10). -/
def halfBorrowDec (old : Byte) : Bool := decide ((old &&& 0x0F).toNat < 1)

/-- H of `CP n`, the borrow on the low nibble: (a & 0x0F) < (n & 0x0F) (41_xor_cp R121). -/
def halfBorrowCp (a n : Byte) : Bool := decide ((a &&& 0x0F).toNat < (n &&& 0x0F).toNat)

/-- C of `CP n`: a < n, unsigned (41_xor_cp R121). -/
def borrowCp (a n : Byte) : Bool := decide (a.toNat < n.toNat)

/-- C of the rotates: old bit 7 (42_bit_rotate R131, R132). -/
def carryRotate (old : Byte) : Bool := old.getLsbD 7

/-- The rotate's result: ((old << 1) | cin) mod 256 (42_bit_rotate R131, R132). -/
def rotateLeft (old : Byte) (cin : Bool) : Byte := (old <<< 1) ||| (BitVec.ofBool cin).setWidth 8

/-- Whether a branch condition holds; none reads N or H (45_control R185). -/
def State.holdsAt (s : State) (p : FlagPos) : Cond → Bool
  | .nz => !s.flagAt p .z
  | .z => s.flagAt p .z
  | .nc => !s.flagAt p .c
  | .c => s.flagAt p .c

/-- Whether a branch condition holds in the decided machine. -/
abbrev State.holds (s : State) (cc : Cond) : Bool := s.holdsAt FlagPos.decided cc

end Sys2Proof.Machine
end

