-- ==== Sys2Proof/Machine/Operands.lean ====
section
/-! DEFINITION. The operand forms: registers, pairs, extensions, effective addresses (spec/10_state.md R21 to R25,
00_scope.md R14, R15, 20_memory.md R54, R59). -/

namespace Sys2Proof.Machine

/-- `x[r]`. -/
def State.reg (s : State) : Reg8 → Byte
  | .a => s.a | .b => s.b | .c => s.c | .d => s.d | .e => s.e | .h => s.h | .l => s.l

/-- `x[r] <- v`. -/
def State.setReg (s : State) (r : Reg8) (v : Byte) : State :=
  match r with
  | .a => { s with a := v }
  | .b => { s with b := v }
  | .c => { s with c := v }
  | .d => { s with d := v }
  | .e => { s with e := v }
  | .h => { s with h := v }
  | .l => { s with l := v }

/-- `x[rr]` of a pair: the first-named register is the high byte (10_state R24, 90_conflicts C6). -/
def State.pair (s : State) : Pair → Word
  | .bc => Word.ofBytes s.b s.c
  | .de => Word.ofBytes s.d s.e
  | .hl => Word.ofBytes s.h s.l
  | .af => Word.ofBytes s.a s.f

/-- `x[rr] <- v` of a pair, both halves at once; AF's low nibble is dropped (10_state R25). -/
def State.setPair (s : State) (p : Pair) (v : Word) : State :=
  match p with
  | .bc => { s with b := v.high, c := v.low }
  | .de => { s with d := v.high, e := v.low }
  | .hl => { s with h := v.high, l := v.low }
  | .af => { s with a := v.high }.setF v.low

/-- `x[rr]` of `LD rr,nn` and `INC rr`, SP among them. -/
def State.reg16 (s : State) : Reg16 → Word
  | .bc => s.pair .bc
  | .de => s.pair .de
  | .hl => s.pair .hl
  | .sp => s.sp

/-- `x[rr] <- v` of `LD rr,nn` and `INC rr`. -/
def State.setReg16 (s : State) (rr : Reg16) (v : Word) : State :=
  match rr with
  | .bc => s.setPair .bc v
  | .de => s.setPair .de v
  | .hl => s.setPair .hl v
  | .sp => { s with sp := v }

/-- `zext_16` (00_scope R15). -/
def zext16 (b : Byte) : Word := b.setWidth 16

/-- `sext_16`: b if b < 128, otherwise b + 65280 (00_scope R15). -/
def sext16 (b : Byte) : Word := if b.toNat < 128 then zext16 b else zext16 b + 65280#16

/-- The effective address in a 16-bit value, an integer (00_scope R16). -/
def wordAddr (w : Word) : Int := w.toNat

/-- The zero-page address: integer addition of an unsigned byte to 0xFF00 (43_load R153 to R156). -/
def zeroPageAddr (offset : Byte) : Int := 0xFF00 + offset.toNat

/-- The address of a push's low byte, not wrapped: `x[SP] - 1` (44_stack R170, 20_memory R54). -/
def pushAddr (s : State) : Int := wordAddr s.sp - 1

/-- The address of a pop's low byte, not wrapped: `x[SP] + 1` (44_stack R171, 20_memory R54). -/
def popAddr (s : State) : Int := wordAddr s.sp + 1

/-- `pc <- (pc + len) mod 65536` (10_state R30, R31). -/
def State.advance (s : State) (len : Nat) : State := { s with pc := s.pc + BitVec.ofNat 16 len }

/-- `pc <- target`. -/
def State.jump (s : State) (target : Word) : State := { s with pc := target }

end Sys2Proof.Machine
end

