-- ==== Sys2Proof/Machine/Ops.lean ====
section
/-! DEFINITION. Memory accesses, the stack primitives and taking an exception (spec/20_memory.md R52 to R58,
44_stack.md R170, R171, 60_exceptions.md R190, R198), over a configuration. -/

namespace Sys2Proof.Machine

/-! ## Exceptions -/

/-- The four synchronous events (60_exceptions R190), without numeric codes (R201). -/
inductive Event where
  | halted
  | unknownOpcode (op : Byte) (addr : Word)
  | unimplementedOpcode (sub : Byte) (addr : Word)
  | indexFault (addr : Int)
deriving DecidableEq, Repr

/-- The terminal run state an event leads to. -/
def Event.runState : Event → RunState
  | .halted => .halted
  | .unknownOpcode op addr => .unknownOpcode op addr
  | .unimplementedOpcode sub addr => .unimplementedOpcode sub addr
  | .indexFault addr => .faulted addr

/-- Taking an exception: RUN becomes the event's terminal state and nothing else changes; nothing is saved, control goes
nowhere (60_exceptions R198). There is no return from one but `construct` (R197, R199). -/
def takeEvent (s : State) (ev : Event) : State := { s with run := ev.runState }

/-- What a part of an instruction computes, or the address at which it raised `IndexFault`. -/
abbrev Access (α : Type) := Except Int α

/-- `apply`'s two cases (30_encoding R96): everything the rule wrote, or `RUN <- Faulted(a)` and nothing else. -/
def commit (s : State) : Access State → Result
  | .ok t => .next t
  | .error addr => .next (takeEvent s (.indexFault addr))

/-! ## Memory accesses at integer addresses -/

/-- The addresses that exist: 0 to `MEM_SIZE` - 1 (20_memory R50). -/
abbrev inRange (c : Config) (addr : Int) : Prop := 0 ≤ addr ∧ addr < (c.memSize : Int)

/-- The index into Memory of an address that exists; no other address is reduced to one (20_memory R54, R66). -/
def index (c : Config) : Int → Option Nat
  | .ofNat k => if k < c.memSize then some k else none
  | .negSucc _ => none

/-- `MemRead(addr, 1)` (20_memory R52). -/
def memRead (c : Config) (s : State) (addr : Int) : Access Byte :=
  match index c addr with
  | some k => .ok (s.mem.read k)
  | none => .error addr

/-- `MemWrite(addr, 1, v)` (20_memory R53). -/
def memWrite (c : Config) (s : State) (addr : Int) (v : Byte) : Access State :=
  match index c addr with
  | some k => .ok { s with mem := s.mem.write k v }
  | none => .error addr

/-- `MemRead(addr, 2)`: little-endian; the lowest out-of-range address of the two is reported (20_memory R55, R58). -/
def memRead16 (c : Config) (s : State) (addr : Int) : Access Word :=
  match memRead c s addr, memRead c s (addr + 1) with
  | .ok lo, .ok hi => .ok (Word.ofBytes hi lo)
  | .error k, _ => .error k
  | .ok _, .error k => .error k

/-- `MemWrite(addr, 2, w)`: both addresses are checked before either byte is written (20_memory R58). -/
def memWrite16 (c : Config) (s : State) (addr : Int) (w : Word) : Access State :=
  match memWrite c s addr w.low with
  | .ok t => memWrite c t (addr + 1) w.high
  | .error k => .error k

/-! ## The stack -/

/-- `push(v)`: the two bytes at SP - 1 and SP, then SP - 2 mod 65536 (44_stack R170). -/
def push (c : Config) (v : Word) (s : State) : Access State :=
  match memWrite16 c s (pushAddr s) v with
  | .ok t => .ok { t with sp := s.sp - 2 }
  | .error k => .error k

/-- `pop()`: the word at SP + 1 and SP + 2, then SP + 2 mod 65536 (44_stack R171). -/
def pop (c : Config) (s : State) : Access (Word × State) :=
  match memRead16 c s (popAddr s) with
  | .ok v => .ok (v, { s with sp := s.sp + 2 })
  | .error k => .error k

/-! ## Fetch -/

/-- The instruction bytes that exist at `pc`, `pc + 1`, `pc + 2`: the opcode and as much of the tail as any instruction
takes, up to the last byte of Memory, not wrapped (30_encoding R80, R85). -/
def fetchBytes (c : Config) (s : State) : List Byte :=
  ([0, 1, 2].filter fun k => s.pc.toNat + k < c.memSize).map fun k => s.mem.read (s.pc.toNat + k)

/-- Bytes placed at consecutive addresses, as far as the addresses exist. -/
def placeBytes (c : Config) (s : State) : Nat → List Byte → State
  | _, [] => s
  | addr, v :: rest =>
    let t := placeBytes c s (addr + 1) rest
    if addr < c.memSize then { t with mem := t.mem.write addr v } else t

end Sys2Proof.Machine
end

