-- ==== Sys2Proof/Machine/BitRotate.lean ====
section
/-! DEFINITION. Bit test and rotate left through carry (spec/42_bit_rotate.md). -/

namespace Sys2Proof.Machine

/-- `BIT b,r` (R130): Z the complement of the bit, N = 0, H = 1, C kept. -/
def bitTest (c : Config) (b : Fin 8) (r : Reg8) (s : State) : Result :=
  .next ((s.setFlags c.flagPos (!(s.reg r).getLsbD b.val) false true (s.flagAt c.flagPos .c)).advance 2)

/-- The rotate of R131 and R132: the register through the carry flag; Z from the result (90_conflicts C10; log entry 16). -/
def rotated (c : Config) (r : Reg8) (s : State) : State :=
  let old := s.reg r
  let res := rotateLeft old (s.flagAt c.flagPos .c)
  (s.setReg r res).setFlags c.flagPos (isZero res) false false (carryRotate old)

/-- `RLA` (R131). -/
def rotateLeftA (c : Config) (s : State) : Result := .next ((rotated c .a s).advance 1)

/-- `RL r` (R132). -/
def rlReg (c : Config) (r : Reg8) (s : State) : Result := .next ((rotated c r s).advance 2)

/-! The meanings, one per row of the table: the form's operation at the row's registers. -/

/-- `RLA` (R131). -/
def execRla (s : State) : Result := rotateLeftA Config.decided s

/-- `RL B` (R132). -/
def execRlB (s : State) : Result := rlReg Config.decided .b s

/-- `RL C` (R132). -/
def execRlC (s : State) : Result := rlReg Config.decided .c s

/-- `RL D` (R132). -/
def execRlD (s : State) : Result := rlReg Config.decided .d s

/-- `RL E` (R132). -/
def execRlE (s : State) : Result := rlReg Config.decided .e s

/-- `RL H` (R132). -/
def execRlH (s : State) : Result := rlReg Config.decided .h s

/-- `RL L` (R132). -/
def execRlL (s : State) : Result := rlReg Config.decided .l s

/-- `RL A` (R132). -/
def execRlA (s : State) : Result := rlReg Config.decided .a s

/-- `BIT 0,B` (R130). -/
def execBit0B (s : State) : Result := bitTest Config.decided 0 .b s

/-- `BIT 0,C` (R130). -/
def execBit0C (s : State) : Result := bitTest Config.decided 0 .c s

/-- `BIT 0,D` (R130). -/
def execBit0D (s : State) : Result := bitTest Config.decided 0 .d s

/-- `BIT 0,E` (R130). -/
def execBit0E (s : State) : Result := bitTest Config.decided 0 .e s

/-- `BIT 0,H` (R130). -/
def execBit0H (s : State) : Result := bitTest Config.decided 0 .h s

/-- `BIT 0,L` (R130). -/
def execBit0L (s : State) : Result := bitTest Config.decided 0 .l s

/-- `BIT 0,A` (R130). -/
def execBit0A (s : State) : Result := bitTest Config.decided 0 .a s

/-- `BIT 1,B` (R130). -/
def execBit1B (s : State) : Result := bitTest Config.decided 1 .b s

/-- `BIT 1,C` (R130). -/
def execBit1C (s : State) : Result := bitTest Config.decided 1 .c s

/-- `BIT 1,D` (R130). -/
def execBit1D (s : State) : Result := bitTest Config.decided 1 .d s

/-- `BIT 1,E` (R130). -/
def execBit1E (s : State) : Result := bitTest Config.decided 1 .e s

/-- `BIT 1,H` (R130). -/
def execBit1H (s : State) : Result := bitTest Config.decided 1 .h s

/-- `BIT 1,L` (R130). -/
def execBit1L (s : State) : Result := bitTest Config.decided 1 .l s

/-- `BIT 1,A` (R130). -/
def execBit1A (s : State) : Result := bitTest Config.decided 1 .a s

/-- `BIT 2,B` (R130). -/
def execBit2B (s : State) : Result := bitTest Config.decided 2 .b s

/-- `BIT 2,C` (R130). -/
def execBit2C (s : State) : Result := bitTest Config.decided 2 .c s

/-- `BIT 2,D` (R130). -/
def execBit2D (s : State) : Result := bitTest Config.decided 2 .d s

/-- `BIT 2,E` (R130). -/
def execBit2E (s : State) : Result := bitTest Config.decided 2 .e s

/-- `BIT 2,H` (R130). -/
def execBit2H (s : State) : Result := bitTest Config.decided 2 .h s

/-- `BIT 2,L` (R130). -/
def execBit2L (s : State) : Result := bitTest Config.decided 2 .l s

/-- `BIT 2,A` (R130). -/
def execBit2A (s : State) : Result := bitTest Config.decided 2 .a s

/-- `BIT 3,B` (R130). -/
def execBit3B (s : State) : Result := bitTest Config.decided 3 .b s

/-- `BIT 3,C` (R130). -/
def execBit3C (s : State) : Result := bitTest Config.decided 3 .c s

/-- `BIT 3,D` (R130). -/
def execBit3D (s : State) : Result := bitTest Config.decided 3 .d s

/-- `BIT 3,E` (R130). -/
def execBit3E (s : State) : Result := bitTest Config.decided 3 .e s

/-- `BIT 3,H` (R130). -/
def execBit3H (s : State) : Result := bitTest Config.decided 3 .h s

/-- `BIT 3,L` (R130). -/
def execBit3L (s : State) : Result := bitTest Config.decided 3 .l s

/-- `BIT 3,A` (R130). -/
def execBit3A (s : State) : Result := bitTest Config.decided 3 .a s

/-- `BIT 4,B` (R130). -/
def execBit4B (s : State) : Result := bitTest Config.decided 4 .b s

/-- `BIT 4,C` (R130). -/
def execBit4C (s : State) : Result := bitTest Config.decided 4 .c s

/-- `BIT 4,D` (R130). -/
def execBit4D (s : State) : Result := bitTest Config.decided 4 .d s

/-- `BIT 4,E` (R130). -/
def execBit4E (s : State) : Result := bitTest Config.decided 4 .e s

/-- `BIT 4,H` (R130). -/
def execBit4H (s : State) : Result := bitTest Config.decided 4 .h s

/-- `BIT 4,L` (R130). -/
def execBit4L (s : State) : Result := bitTest Config.decided 4 .l s

/-- `BIT 4,A` (R130). -/
def execBit4A (s : State) : Result := bitTest Config.decided 4 .a s

/-- `BIT 5,B` (R130). -/
def execBit5B (s : State) : Result := bitTest Config.decided 5 .b s

/-- `BIT 5,C` (R130). -/
def execBit5C (s : State) : Result := bitTest Config.decided 5 .c s

/-- `BIT 5,D` (R130). -/
def execBit5D (s : State) : Result := bitTest Config.decided 5 .d s

/-- `BIT 5,E` (R130). -/
def execBit5E (s : State) : Result := bitTest Config.decided 5 .e s

/-- `BIT 5,H` (R130). -/
def execBit5H (s : State) : Result := bitTest Config.decided 5 .h s

/-- `BIT 5,L` (R130). -/
def execBit5L (s : State) : Result := bitTest Config.decided 5 .l s

/-- `BIT 5,A` (R130). -/
def execBit5A (s : State) : Result := bitTest Config.decided 5 .a s

/-- `BIT 6,B` (R130). -/
def execBit6B (s : State) : Result := bitTest Config.decided 6 .b s

/-- `BIT 6,C` (R130). -/
def execBit6C (s : State) : Result := bitTest Config.decided 6 .c s

/-- `BIT 6,D` (R130). -/
def execBit6D (s : State) : Result := bitTest Config.decided 6 .d s

/-- `BIT 6,E` (R130). -/
def execBit6E (s : State) : Result := bitTest Config.decided 6 .e s

/-- `BIT 6,H` (R130). -/
def execBit6H (s : State) : Result := bitTest Config.decided 6 .h s

/-- `BIT 6,L` (R130). -/
def execBit6L (s : State) : Result := bitTest Config.decided 6 .l s

/-- `BIT 6,A` (R130). -/
def execBit6A (s : State) : Result := bitTest Config.decided 6 .a s

/-- `BIT 7,B` (R130). -/
def execBit7B (s : State) : Result := bitTest Config.decided 7 .b s

/-- `BIT 7,C` (R130). -/
def execBit7C (s : State) : Result := bitTest Config.decided 7 .c s

/-- `BIT 7,D` (R130). -/
def execBit7D (s : State) : Result := bitTest Config.decided 7 .d s

/-- `BIT 7,E` (R130). -/
def execBit7E (s : State) : Result := bitTest Config.decided 7 .e s

/-- `BIT 7,H` (R130). -/
def execBit7H (s : State) : Result := bitTest Config.decided 7 .h s

/-- `BIT 7,L` (R130). -/
def execBit7L (s : State) : Result := bitTest Config.decided 7 .l s

/-- `BIT 7,A` (R130). -/
def execBit7A (s : State) : Result := bitTest Config.decided 7 .a s

end Sys2Proof.Machine
end

