-- ==== Sys2Proof/Machine/Control.lean ====
section
/-! DEFINITION. Control transfer (spec/45_control.md). No flag is written. -/

namespace Sys2Proof.Machine

/-- `CALL nn` (R180): the return address is that of the instruction following. -/
def callAbs (c : Config) (nn : Word) (s : State) : Result :=
  commit s ((push c (s.pc + 3) s).map fun t => t.jump nn)

/-- `RET` (R181). -/
def returnSub (c : Config) (s : State) : Result :=
  commit s ((pop c s).map fun vt => vt.2.jump vt.1)

/-- `JR e` (R183): PC advanced by the length, then by the displacement, both mod 65536. -/
def jumpRel (e : Byte) (s : State) : Result :=
  let t := s.advance 2
  .next (t.jump (t.pc + sext16 e))

/-- `JR cc,e` (R182): the displacement is added only if the condition holds. -/
def jumpRelIf (c : Config) (cc : Cond) (e : Byte) (s : State) : Result :=
  if s.holdsAt c.flagPos cc then jumpRel e s else .next (s.advance 2)

/-- `JP nn` (R184). -/
def jumpAbs (nn : Word) (s : State) : Result := .next (s.jump nn)

/-! The meanings, one per row of the table: the form's operation at the row's registers. -/

/-- `JR e` (R183). -/
def execJrE (e : Byte) (s : State) : Result := jumpRel e s

/-- `JR NZ,e` (R182). -/
def execJrNz (e : Byte) (s : State) : Result := jumpRelIf Config.decided .nz e s

/-- `JR Z,e` (R182). -/
def execJrZ (e : Byte) (s : State) : Result := jumpRelIf Config.decided .z e s

/-- `JR NC,e` (R182). -/
def execJrNc (e : Byte) (s : State) : Result := jumpRelIf Config.decided .nc e s

/-- `JR C,e` (R182). -/
def execJrC (e : Byte) (s : State) : Result := jumpRelIf Config.decided .c e s

/-- `JP nn` (R184). -/
def execJpNn (nn : Word) (s : State) : Result := jumpAbs nn s

/-- `RET` (R181). -/
def execRet (s : State) : Result := returnSub Config.decided s

/-- `CALL nn` (R180). -/
def execCallNn (nn : Word) (s : State) : Result := callAbs Config.decided nn s

end Sys2Proof.Machine
end

