-- ==== Sys2Proof/Machine/IncDec.lean ====
section
/-! DEFINITION. Increment and decrement (spec/40_inc_dec.md). -/

namespace Sys2Proof.Machine

/-- `INC r` (R110): Z, N = 0, H; C kept (the spec's decision D20; log entry 10). -/
def incReg (c : Config) (r : Reg8) (s : State) : Result :=
  let old := s.reg r
  let res := old + 1
  .next (((s.setReg r res).setFlags c.flagPos (isZero res) false (halfCarryInc old) (s.flagAt c.flagPos .c)).advance 1)

/-- `DEC r` (R111): Z, N = 1, H; C kept (the spec's decision D20; log entry 10). -/
def decReg (c : Config) (r : Reg8) (s : State) : Result :=
  let old := s.reg r
  let res := old - 1
  .next (((s.setReg r res).setFlags c.flagPos (isZero res) true (halfBorrowDec old) (s.flagAt c.flagPos .c)).advance 1)

/-- `INC rr` (R112): no flag. -/
def incReg16 (rr : Reg16) (s : State) : Result :=
  .next ((s.setReg16 rr (s.reg16 rr + 1)).advance 1)

/-! The meanings, one per row of the table: the form's operation at the row's registers. -/

/-- `INC BC` (R112). -/
def execIncBc (s : State) : Result := incReg16 .bc s

/-- `INC B` (R110). -/
def execIncB (s : State) : Result := incReg Config.decided .b s

/-- `DEC B` (R111). -/
def execDecB (s : State) : Result := decReg Config.decided .b s

/-- `INC C` (R110). -/
def execIncC (s : State) : Result := incReg Config.decided .c s

/-- `DEC C` (R111). -/
def execDecC (s : State) : Result := decReg Config.decided .c s

/-- `INC DE` (R112). -/
def execIncDe (s : State) : Result := incReg16 .de s

/-- `INC D` (R110). -/
def execIncD (s : State) : Result := incReg Config.decided .d s

/-- `DEC D` (R111). -/
def execDecD (s : State) : Result := decReg Config.decided .d s

/-- `INC E` (R110). -/
def execIncE (s : State) : Result := incReg Config.decided .e s

/-- `DEC E` (R111). -/
def execDecE (s : State) : Result := decReg Config.decided .e s

/-- `INC HL` (R112). -/
def execIncHl (s : State) : Result := incReg16 .hl s

/-- `INC H` (R110). -/
def execIncH (s : State) : Result := incReg Config.decided .h s

/-- `DEC H` (R111). -/
def execDecH (s : State) : Result := decReg Config.decided .h s

/-- `INC L` (R110). -/
def execIncL (s : State) : Result := incReg Config.decided .l s

/-- `DEC L` (R111). -/
def execDecL (s : State) : Result := decReg Config.decided .l s

/-- `INC SP` (R112). -/
def execIncSp (s : State) : Result := incReg16 .sp s

/-- `INC A` (R110). -/
def execIncA (s : State) : Result := incReg Config.decided .a s

/-- `DEC A` (R111). -/
def execDecA (s : State) : Result := decReg Config.decided .a s

end Sys2Proof.Machine
end

