-- ==== Sys2Proof/Machine/Load.lean ====
section
/-! DEFINITION. Loads and stores (spec/43_load.md). No flag is read or written (R159). -/

namespace Sys2Proof.Machine

/-- The byte at an address loaded into a register, then PC advanced. -/
def loadFrom (c : Config) (r : Reg8) (addr : Int) (len : Nat) (s : State) : Access State :=
  match memRead c s addr with
  | .ok v => .ok ((s.setReg r v).advance len)
  | .error k => .error k

/-- A byte stored at an address, then PC advanced. -/
def storeTo (c : Config) (addr : Int) (v : Byte) (len : Nat) (s : State) : Access State :=
  match memWrite c s addr v with
  | .ok t => .ok (t.advance len)
  | .error k => .error k

/-- HL changed by a constant mod 65536, after the access that used the old HL (R149 to R152; the spec's decision D11; log
entry 9). -/
def thenHl (hl : Word) (delta : Int) : Access State → Access State
  | .ok t => .ok (t.setPair .hl (hl + BitVec.ofInt 16 delta))
  | .error k => .error k

/-- `LD r,r'` (R140). -/
def copyReg (dst src : Reg8) (s : State) : Result := .next ((s.setReg dst (s.reg src)).advance 1)

/-- `LD r,n` (R141). -/
def loadImm (r : Reg8) (n : Byte) (s : State) : Result := .next ((s.setReg r n).advance 2)

/-- `LD rr,nn` (R142). -/
def loadImm16 (rr : Reg16) (nn : Word) (s : State) : Result := .next ((s.setReg16 rr nn).advance 3)

/-- `LD r,(HL)` (R143): the address is formed before the register is written. -/
def loadAtHl (c : Config) (r : Reg8) (s : State) : Result :=
  commit s (loadFrom c r (wordAddr (s.pair .hl)) 1 s)

/-- `LD (HL),r` (R144). -/
def storeAtHl (c : Config) (r : Reg8) (s : State) : Result :=
  commit s (storeTo c (wordAddr (s.pair .hl)) (s.reg r) 1 s)

/-- `LD A,(BC)` (R145), `LD A,(DE)` (R146). -/
def loadA (c : Config) (p : Pair) (s : State) : Result :=
  commit s (loadFrom c .a (wordAddr (s.pair p)) 1 s)

/-- `LD (BC),A` (R147), `LD (DE),A` (R148). -/
def storeA (c : Config) (p : Pair) (s : State) : Result :=
  commit s (storeTo c (wordAddr (s.pair p)) s.a 1 s)

/-- `LD (HL+),A` (R149) with delta 1, `LD (HL-),A` (R151) with delta -1. -/
def storeAHl (c : Config) (delta : Int) (s : State) : Result :=
  commit s (thenHl (s.pair .hl) delta (storeTo c (wordAddr (s.pair .hl)) s.a 1 s))

/-- `LD A,(HL+)` (R150) with delta 1, `LD A,(HL-)` (R152) with delta -1. -/
def loadAHl (c : Config) (delta : Int) (s : State) : Result :=
  commit s (thenHl (s.pair .hl) delta (loadFrom c .a (wordAddr (s.pair .hl)) 1 s))

/-- `LDH (n),A` (R153), length 2, and `LD (C),A` (R155), length 1. -/
def storeZeroPage (c : Config) (offset : Byte) (len : Nat) (s : State) : Result :=
  commit s (storeTo c (zeroPageAddr offset) s.a len s)

/-- `LDH A,(n)` (R154), length 2, and `LD A,(C)` (R156), length 1. -/
def loadZeroPage (c : Config) (offset : Byte) (len : Nat) (s : State) : Result :=
  commit s (loadFrom c .a (zeroPageAddr offset) len s)

/-- `LD (nn),A` (R157). -/
def storeAbs (c : Config) (nn : Word) (s : State) : Result :=
  commit s (storeTo c (wordAddr nn) s.a 3 s)

/-- `LD A,(nn)` (R158). -/
def loadAbs (c : Config) (nn : Word) (s : State) : Result :=
  commit s (loadFrom c .a (wordAddr nn) 3 s)

/-! The meanings, one per row of the table: the form's operation at the row's registers. -/

/-- `LD BC,nn` (R142). -/
def execLdBcNn (nn : Word) (s : State) : Result := loadImm16 .bc nn s

/-- `LD (BC),A` (R147). -/
def execLdAtBcA (s : State) : Result := storeA Config.decided .bc s

/-- `LD B,n` (R141). -/
def execLdBN (n : Byte) (s : State) : Result := loadImm .b n s

/-- `LD A,(BC)` (R145). -/
def execLdAAtBc (s : State) : Result := loadA Config.decided .bc s

/-- `LD C,n` (R141). -/
def execLdCN (n : Byte) (s : State) : Result := loadImm .c n s

/-- `LD DE,nn` (R142). -/
def execLdDeNn (nn : Word) (s : State) : Result := loadImm16 .de nn s

/-- `LD (DE),A` (R148). -/
def execLdAtDeA (s : State) : Result := storeA Config.decided .de s

/-- `LD D,n` (R141). -/
def execLdDN (n : Byte) (s : State) : Result := loadImm .d n s

/-- `LD A,(DE)` (R146). -/
def execLdAAtDe (s : State) : Result := loadA Config.decided .de s

/-- `LD E,n` (R141). -/
def execLdEN (n : Byte) (s : State) : Result := loadImm .e n s

/-- `LD HL,nn` (R142). -/
def execLdHlNn (nn : Word) (s : State) : Result := loadImm16 .hl nn s

/-- `LD (HL+),A` (R149). -/
def execLdAtHlIncA (s : State) : Result := storeAHl Config.decided 1 s

/-- `LD H,n` (R141). -/
def execLdHN (n : Byte) (s : State) : Result := loadImm .h n s

/-- `LD A,(HL+)` (R150). -/
def execLdAAtHlInc (s : State) : Result := loadAHl Config.decided 1 s

/-- `LD L,n` (R141). -/
def execLdLN (n : Byte) (s : State) : Result := loadImm .l n s

/-- `LD SP,nn` (R142). -/
def execLdSpNn (nn : Word) (s : State) : Result := loadImm16 .sp nn s

/-- `LD (HL-),A` (R151). -/
def execLdAtHlDecA (s : State) : Result := storeAHl Config.decided (-1) s

/-- `LD A,(HL-)` (R152). -/
def execLdAAtHlDec (s : State) : Result := loadAHl Config.decided (-1) s

/-- `LD A,n` (R141). -/
def execLdAN (n : Byte) (s : State) : Result := loadImm .a n s

/-- `LD B,B` (R140). -/
def execLdBB (s : State) : Result := copyReg .b .b s

/-- `LD B,C` (R140). -/
def execLdBC (s : State) : Result := copyReg .b .c s

/-- `LD B,D` (R140). -/
def execLdBD (s : State) : Result := copyReg .b .d s

/-- `LD B,E` (R140). -/
def execLdBE (s : State) : Result := copyReg .b .e s

/-- `LD B,H` (R140). -/
def execLdBH (s : State) : Result := copyReg .b .h s

/-- `LD B,L` (R140). -/
def execLdBL (s : State) : Result := copyReg .b .l s

/-- `LD B,(HL)` (R143). -/
def execLdBAtHl (s : State) : Result := loadAtHl Config.decided .b s

/-- `LD B,A` (R140). -/
def execLdBA (s : State) : Result := copyReg .b .a s

/-- `LD C,B` (R140). -/
def execLdCB (s : State) : Result := copyReg .c .b s

/-- `LD C,C` (R140). -/
def execLdCC (s : State) : Result := copyReg .c .c s

/-- `LD C,D` (R140). -/
def execLdCD (s : State) : Result := copyReg .c .d s

/-- `LD C,E` (R140). -/
def execLdCE (s : State) : Result := copyReg .c .e s

/-- `LD C,H` (R140). -/
def execLdCH (s : State) : Result := copyReg .c .h s

/-- `LD C,L` (R140). -/
def execLdCL (s : State) : Result := copyReg .c .l s

/-- `LD C,(HL)` (R143). -/
def execLdCAtHl (s : State) : Result := loadAtHl Config.decided .c s

/-- `LD C,A` (R140). -/
def execLdCA (s : State) : Result := copyReg .c .a s

/-- `LD D,B` (R140). -/
def execLdDB (s : State) : Result := copyReg .d .b s

/-- `LD D,C` (R140). -/
def execLdDC (s : State) : Result := copyReg .d .c s

/-- `LD D,D` (R140). -/
def execLdDD (s : State) : Result := copyReg .d .d s

/-- `LD D,E` (R140). -/
def execLdDE (s : State) : Result := copyReg .d .e s

/-- `LD D,H` (R140). -/
def execLdDH (s : State) : Result := copyReg .d .h s

/-- `LD D,L` (R140). -/
def execLdDL (s : State) : Result := copyReg .d .l s

/-- `LD D,(HL)` (R143). -/
def execLdDAtHl (s : State) : Result := loadAtHl Config.decided .d s

/-- `LD D,A` (R140). -/
def execLdDA (s : State) : Result := copyReg .d .a s

/-- `LD E,B` (R140). -/
def execLdEB (s : State) : Result := copyReg .e .b s

/-- `LD E,C` (R140). -/
def execLdEC (s : State) : Result := copyReg .e .c s

/-- `LD E,D` (R140). -/
def execLdED (s : State) : Result := copyReg .e .d s

/-- `LD E,E` (R140). -/
def execLdEE (s : State) : Result := copyReg .e .e s

/-- `LD E,H` (R140). -/
def execLdEH (s : State) : Result := copyReg .e .h s

/-- `LD E,L` (R140). -/
def execLdEL (s : State) : Result := copyReg .e .l s

/-- `LD E,(HL)` (R143). -/
def execLdEAtHl (s : State) : Result := loadAtHl Config.decided .e s

/-- `LD E,A` (R140). -/
def execLdEA (s : State) : Result := copyReg .e .a s

/-- `LD H,B` (R140). -/
def execLdHB (s : State) : Result := copyReg .h .b s

/-- `LD H,C` (R140). -/
def execLdHC (s : State) : Result := copyReg .h .c s

/-- `LD H,D` (R140). -/
def execLdHD (s : State) : Result := copyReg .h .d s

/-- `LD H,E` (R140). -/
def execLdHE (s : State) : Result := copyReg .h .e s

/-- `LD H,H` (R140). -/
def execLdHH (s : State) : Result := copyReg .h .h s

/-- `LD H,L` (R140). -/
def execLdHL (s : State) : Result := copyReg .h .l s

/-- `LD H,(HL)` (R143). -/
def execLdHAtHl (s : State) : Result := loadAtHl Config.decided .h s

/-- `LD H,A` (R140). -/
def execLdHA (s : State) : Result := copyReg .h .a s

/-- `LD L,B` (R140). -/
def execLdLB (s : State) : Result := copyReg .l .b s

/-- `LD L,C` (R140). -/
def execLdLC (s : State) : Result := copyReg .l .c s

/-- `LD L,D` (R140). -/
def execLdLD (s : State) : Result := copyReg .l .d s

/-- `LD L,E` (R140). -/
def execLdLE (s : State) : Result := copyReg .l .e s

/-- `LD L,H` (R140). -/
def execLdLH (s : State) : Result := copyReg .l .h s

/-- `LD L,L` (R140). -/
def execLdLL (s : State) : Result := copyReg .l .l s

/-- `LD L,(HL)` (R143). -/
def execLdLAtHl (s : State) : Result := loadAtHl Config.decided .l s

/-- `LD L,A` (R140). -/
def execLdLA (s : State) : Result := copyReg .l .a s

/-- `LD (HL),B` (R144). -/
def execLdAtHlB (s : State) : Result := storeAtHl Config.decided .b s

/-- `LD (HL),C` (R144). -/
def execLdAtHlC (s : State) : Result := storeAtHl Config.decided .c s

/-- `LD (HL),D` (R144). -/
def execLdAtHlD (s : State) : Result := storeAtHl Config.decided .d s

/-- `LD (HL),E` (R144). -/
def execLdAtHlE (s : State) : Result := storeAtHl Config.decided .e s

/-- `LD (HL),H` (R144). -/
def execLdAtHlH (s : State) : Result := storeAtHl Config.decided .h s

/-- `LD (HL),L` (R144). -/
def execLdAtHlL (s : State) : Result := storeAtHl Config.decided .l s

/-- `LD (HL),A` (R144). -/
def execLdAtHlA (s : State) : Result := storeAtHl Config.decided .a s

/-- `LD A,B` (R140). -/
def execLdAB (s : State) : Result := copyReg .a .b s

/-- `LD A,C` (R140). -/
def execLdAC (s : State) : Result := copyReg .a .c s

/-- `LD A,D` (R140). -/
def execLdAD (s : State) : Result := copyReg .a .d s

/-- `LD A,E` (R140). -/
def execLdAE (s : State) : Result := copyReg .a .e s

/-- `LD A,H` (R140). -/
def execLdAH (s : State) : Result := copyReg .a .h s

/-- `LD A,L` (R140). -/
def execLdAL (s : State) : Result := copyReg .a .l s

/-- `LD A,(HL)` (R143). -/
def execLdAAtHl (s : State) : Result := loadAtHl Config.decided .a s

/-- `LD A,A` (R140). -/
def execLdAA (s : State) : Result := copyReg .a .a s

/-- `LDH (n),A` (R153). -/
def execLdhAtNA (n : Byte) (s : State) : Result := storeZeroPage Config.decided n 2 s

/-- `LD (C),A` (R155). -/
def execLdAtCA (s : State) : Result := storeZeroPage Config.decided s.c 1 s

/-- `LD (nn),A` (R157). -/
def execLdAtNnA (nn : Word) (s : State) : Result := storeAbs Config.decided nn s

/-- `LDH A,(n)` (R154). -/
def execLdhAAtN (n : Byte) (s : State) : Result := loadZeroPage Config.decided n 2 s

/-- `LD A,(C)` (R156). -/
def execLdAAtC (s : State) : Result := loadZeroPage Config.decided s.c 1 s

/-- `LD A,(nn)` (R158). -/
def execLdAAtNn (nn : Word) (s : State) : Result := loadAbs Config.decided nn s

end Sys2Proof.Machine
end

