-- ==== Sys2Proof/Machine/Stack.lean ====
section
/-! DEFINITION. Push and pop of a register pair (spec/44_stack.md). -/

namespace Sys2Proof.Machine

/-- `PUSH rr` (R172). -/
def pushPair (c : Config) (p : Pair) (s : State) : Result :=
  commit s ((push c (s.pair p) s).map fun t => t.advance 1)

/-- `POP rr` (R173): AF's low nibble is dropped (10_state R25). -/
def popPair (c : Config) (p : Pair) (s : State) : Result :=
  commit s ((pop c s).map fun vt => (vt.2.setPair p vt.1).advance 1)

/-! The meanings, one per row of the table: the form's operation at the row's registers. -/

/-- `POP BC` (R173). -/
def execPopBc (s : State) : Result := popPair Config.decided .bc s

/-- `PUSH BC` (R172). -/
def execPushBc (s : State) : Result := pushPair Config.decided .bc s

/-- `POP DE` (R173). -/
def execPopDe (s : State) : Result := popPair Config.decided .de s

/-- `PUSH DE` (R172). -/
def execPushDe (s : State) : Result := pushPair Config.decided .de s

/-- `POP HL` (R173). -/
def execPopHl (s : State) : Result := popPair Config.decided .hl s

/-- `PUSH HL` (R172). -/
def execPushHl (s : State) : Result := pushPair Config.decided .hl s

/-- `POP AF` (R173). -/
def execPopAf (s : State) : Result := popPair Config.decided .af s

/-- `PUSH AF` (R172). -/
def execPushAf (s : State) : Result := pushPair Config.decided .af s

end Sys2Proof.Machine
end

