-- ==== Sys2Proof/Machine/XorCp.lean ====
section
/-! DEFINITION. Exclusive or and compare (spec/41_xor_cp.md). -/

namespace Sys2Proof.Machine

/-- `XOR r` (R120): into A; all four flags written. -/
def xorReg (c : Config) (r : Reg8) (s : State) : Result :=
  let res := s.a ^^^ s.reg r
  .next (((s.setReg .a res).setFlags c.flagPos (isZero res) false false false).advance 1)

/-- `CP n` (R121): A is compared and kept; all four flags written. -/
def cpImm (c : Config) (n : Byte) (s : State) : Result :=
  .next ((s.setFlags c.flagPos (decide (s.a = n)) true (halfBorrowCp s.a n) (borrowCp s.a n)).advance 2)

/-! The meanings, one per row of the table: the form's operation at the row's registers. -/

/-- `XOR B` (R120). -/
def execXorB (s : State) : Result := xorReg Config.decided .b s

/-- `XOR C` (R120). -/
def execXorC (s : State) : Result := xorReg Config.decided .c s

/-- `XOR D` (R120). -/
def execXorD (s : State) : Result := xorReg Config.decided .d s

/-- `XOR E` (R120). -/
def execXorE (s : State) : Result := xorReg Config.decided .e s

/-- `XOR H` (R120). -/
def execXorH (s : State) : Result := xorReg Config.decided .h s

/-- `XOR L` (R120). -/
def execXorL (s : State) : Result := xorReg Config.decided .l s

/-- `XOR A` (R120). -/
def execXorA (s : State) : Result := xorReg Config.decided .a s

/-- `CP n` (R121). -/
def execCpN (n : Byte) (s : State) : Result := cpImm Config.decided n s

end Sys2Proof.Machine
end

