-- ==== Sys2Proof/Syntax.lean ====
section
/-! DEFINITION. The instructions: one constructor per row of spec/opcode_table.json (30_encoding R86, R87, R88), in the
table's order. The operand bytes `n`, `e` and the operand word `nn` are arguments; registers, pairs, conditions and bit
numbers are fixed by the row. -/

namespace Sys2Proof

/-- The 194 modelled encodings of CORE. -/
inductive Instr where
  | ldBcNn (nn : Word)        -- 0x01 LD BC,nn
  | ldAtBcA                   -- 0x02 LD (BC),A
  | incBc                     -- 0x03 INC BC
  | incB                      -- 0x04 INC B
  | decB                      -- 0x05 DEC B
  | ldBN (n : Byte)           -- 0x06 LD B,n
  | ldAAtBc                   -- 0x0A LD A,(BC)
  | incC                      -- 0x0C INC C
  | decC                      -- 0x0D DEC C
  | ldCN (n : Byte)           -- 0x0E LD C,n
  | ldDeNn (nn : Word)        -- 0x11 LD DE,nn
  | ldAtDeA                   -- 0x12 LD (DE),A
  | incDe                     -- 0x13 INC DE
  | incD                      -- 0x14 INC D
  | decD                      -- 0x15 DEC D
  | ldDN (n : Byte)           -- 0x16 LD D,n
  | rla                       -- 0x17 RLA
  | jrE (e : Byte)            -- 0x18 JR e
  | ldAAtDe                   -- 0x1A LD A,(DE)
  | incE                      -- 0x1C INC E
  | decE                      -- 0x1D DEC E
  | ldEN (n : Byte)           -- 0x1E LD E,n
  | jrNz (e : Byte)           -- 0x20 JR NZ,e
  | ldHlNn (nn : Word)        -- 0x21 LD HL,nn
  | ldAtHlIncA                -- 0x22 LD (HL+),A
  | incHl                     -- 0x23 INC HL
  | incH                      -- 0x24 INC H
  | decH                      -- 0x25 DEC H
  | ldHN (n : Byte)           -- 0x26 LD H,n
  | jrZ (e : Byte)            -- 0x28 JR Z,e
  | ldAAtHlInc                -- 0x2A LD A,(HL+)
  | incL                      -- 0x2C INC L
  | decL                      -- 0x2D DEC L
  | ldLN (n : Byte)           -- 0x2E LD L,n
  | jrNc (e : Byte)           -- 0x30 JR NC,e
  | ldSpNn (nn : Word)        -- 0x31 LD SP,nn
  | ldAtHlDecA                -- 0x32 LD (HL-),A
  | incSp                     -- 0x33 INC SP
  | jrC (e : Byte)            -- 0x38 JR C,e
  | ldAAtHlDec                -- 0x3A LD A,(HL-)
  | incA                      -- 0x3C INC A
  | decA                      -- 0x3D DEC A
  | ldAN (n : Byte)           -- 0x3E LD A,n
  | ldBB                      -- 0x40 LD B,B
  | ldBC                      -- 0x41 LD B,C
  | ldBD                      -- 0x42 LD B,D
  | ldBE                      -- 0x43 LD B,E
  | ldBH                      -- 0x44 LD B,H
  | ldBL                      -- 0x45 LD B,L
  | ldBAtHl                   -- 0x46 LD B,(HL)
  | ldBA                      -- 0x47 LD B,A
  | ldCB                      -- 0x48 LD C,B
  | ldCC                      -- 0x49 LD C,C
  | ldCD                      -- 0x4A LD C,D
  | ldCE                      -- 0x4B LD C,E
  | ldCH                      -- 0x4C LD C,H
  | ldCL                      -- 0x4D LD C,L
  | ldCAtHl                   -- 0x4E LD C,(HL)
  | ldCA                      -- 0x4F LD C,A
  | ldDB                      -- 0x50 LD D,B
  | ldDC                      -- 0x51 LD D,C
  | ldDD                      -- 0x52 LD D,D
  | ldDE                      -- 0x53 LD D,E
  | ldDH                      -- 0x54 LD D,H
  | ldDL                      -- 0x55 LD D,L
  | ldDAtHl                   -- 0x56 LD D,(HL)
  | ldDA                      -- 0x57 LD D,A
  | ldEB                      -- 0x58 LD E,B
  | ldEC                      -- 0x59 LD E,C
  | ldED                      -- 0x5A LD E,D
  | ldEE                      -- 0x5B LD E,E
  | ldEH                      -- 0x5C LD E,H
  | ldEL                      -- 0x5D LD E,L
  | ldEAtHl                   -- 0x5E LD E,(HL)
  | ldEA                      -- 0x5F LD E,A
  | ldHB                      -- 0x60 LD H,B
  | ldHC                      -- 0x61 LD H,C
  | ldHD                      -- 0x62 LD H,D
  | ldHE                      -- 0x63 LD H,E
  | ldHH                      -- 0x64 LD H,H
  | ldHL                      -- 0x65 LD H,L
  | ldHAtHl                   -- 0x66 LD H,(HL)
  | ldHA                      -- 0x67 LD H,A
  | ldLB                      -- 0x68 LD L,B
  | ldLC                      -- 0x69 LD L,C
  | ldLD                      -- 0x6A LD L,D
  | ldLE                      -- 0x6B LD L,E
  | ldLH                      -- 0x6C LD L,H
  | ldLL                      -- 0x6D LD L,L
  | ldLAtHl                   -- 0x6E LD L,(HL)
  | ldLA                      -- 0x6F LD L,A
  | ldAtHlB                   -- 0x70 LD (HL),B
  | ldAtHlC                   -- 0x71 LD (HL),C
  | ldAtHlD                   -- 0x72 LD (HL),D
  | ldAtHlE                   -- 0x73 LD (HL),E
  | ldAtHlH                   -- 0x74 LD (HL),H
  | ldAtHlL                   -- 0x75 LD (HL),L
  | ldAtHlA                   -- 0x77 LD (HL),A
  | ldAB                      -- 0x78 LD A,B
  | ldAC                      -- 0x79 LD A,C
  | ldAD                      -- 0x7A LD A,D
  | ldAE                      -- 0x7B LD A,E
  | ldAH                      -- 0x7C LD A,H
  | ldAL                      -- 0x7D LD A,L
  | ldAAtHl                   -- 0x7E LD A,(HL)
  | ldAA                      -- 0x7F LD A,A
  | xorB                      -- 0xA8 XOR B
  | xorC                      -- 0xA9 XOR C
  | xorD                      -- 0xAA XOR D
  | xorE                      -- 0xAB XOR E
  | xorH                      -- 0xAC XOR H
  | xorL                      -- 0xAD XOR L
  | xorA                      -- 0xAF XOR A
  | popBc                     -- 0xC1 POP BC
  | jpNn (nn : Word)          -- 0xC3 JP nn
  | pushBc                    -- 0xC5 PUSH BC
  | ret                       -- 0xC9 RET
  | callNn (nn : Word)        -- 0xCD CALL nn
  | popDe                     -- 0xD1 POP DE
  | pushDe                    -- 0xD5 PUSH DE
  | ldhAtNA (n : Byte)        -- 0xE0 LDH (n),A
  | popHl                     -- 0xE1 POP HL
  | ldAtCA                    -- 0xE2 LD (C),A
  | pushHl                    -- 0xE5 PUSH HL
  | ldAtNnA (nn : Word)       -- 0xEA LD (nn),A
  | ldhAAtN (n : Byte)        -- 0xF0 LDH A,(n)
  | popAf                     -- 0xF1 POP AF
  | ldAAtC                    -- 0xF2 LD A,(C)
  | pushAf                    -- 0xF5 PUSH AF
  | ldAAtNn (nn : Word)       -- 0xFA LD A,(nn)
  | cpN (n : Byte)            -- 0xFE CP n
  | rlB                       -- 0xCB10 RL B
  | rlC                       -- 0xCB11 RL C
  | rlD                       -- 0xCB12 RL D
  | rlE                       -- 0xCB13 RL E
  | rlH                       -- 0xCB14 RL H
  | rlL                       -- 0xCB15 RL L
  | rlA                       -- 0xCB17 RL A
  | bit0B                     -- 0xCB40 BIT 0,B
  | bit0C                     -- 0xCB41 BIT 0,C
  | bit0D                     -- 0xCB42 BIT 0,D
  | bit0E                     -- 0xCB43 BIT 0,E
  | bit0H                     -- 0xCB44 BIT 0,H
  | bit0L                     -- 0xCB45 BIT 0,L
  | bit0A                     -- 0xCB47 BIT 0,A
  | bit1B                     -- 0xCB48 BIT 1,B
  | bit1C                     -- 0xCB49 BIT 1,C
  | bit1D                     -- 0xCB4A BIT 1,D
  | bit1E                     -- 0xCB4B BIT 1,E
  | bit1H                     -- 0xCB4C BIT 1,H
  | bit1L                     -- 0xCB4D BIT 1,L
  | bit1A                     -- 0xCB4F BIT 1,A
  | bit2B                     -- 0xCB50 BIT 2,B
  | bit2C                     -- 0xCB51 BIT 2,C
  | bit2D                     -- 0xCB52 BIT 2,D
  | bit2E                     -- 0xCB53 BIT 2,E
  | bit2H                     -- 0xCB54 BIT 2,H
  | bit2L                     -- 0xCB55 BIT 2,L
  | bit2A                     -- 0xCB57 BIT 2,A
  | bit3B                     -- 0xCB58 BIT 3,B
  | bit3C                     -- 0xCB59 BIT 3,C
  | bit3D                     -- 0xCB5A BIT 3,D
  | bit3E                     -- 0xCB5B BIT 3,E
  | bit3H                     -- 0xCB5C BIT 3,H
  | bit3L                     -- 0xCB5D BIT 3,L
  | bit3A                     -- 0xCB5F BIT 3,A
  | bit4B                     -- 0xCB60 BIT 4,B
  | bit4C                     -- 0xCB61 BIT 4,C
  | bit4D                     -- 0xCB62 BIT 4,D
  | bit4E                     -- 0xCB63 BIT 4,E
  | bit4H                     -- 0xCB64 BIT 4,H
  | bit4L                     -- 0xCB65 BIT 4,L
  | bit4A                     -- 0xCB67 BIT 4,A
  | bit5B                     -- 0xCB68 BIT 5,B
  | bit5C                     -- 0xCB69 BIT 5,C
  | bit5D                     -- 0xCB6A BIT 5,D
  | bit5E                     -- 0xCB6B BIT 5,E
  | bit5H                     -- 0xCB6C BIT 5,H
  | bit5L                     -- 0xCB6D BIT 5,L
  | bit5A                     -- 0xCB6F BIT 5,A
  | bit6B                     -- 0xCB70 BIT 6,B
  | bit6C                     -- 0xCB71 BIT 6,C
  | bit6D                     -- 0xCB72 BIT 6,D
  | bit6E                     -- 0xCB73 BIT 6,E
  | bit6H                     -- 0xCB74 BIT 6,H
  | bit6L                     -- 0xCB75 BIT 6,L
  | bit6A                     -- 0xCB77 BIT 6,A
  | bit7B                     -- 0xCB78 BIT 7,B
  | bit7C                     -- 0xCB79 BIT 7,C
  | bit7D                     -- 0xCB7A BIT 7,D
  | bit7E                     -- 0xCB7B BIT 7,E
  | bit7H                     -- 0xCB7C BIT 7,H
  | bit7L                     -- 0xCB7D BIT 7,L
  | bit7A                     -- 0xCB7F BIT 7,A
deriving DecidableEq, Repr

end Sys2Proof
end

