-- ==== Sys2Proof/Decode.lean ====
section
/-! DEFINITION. The decoder of spec/30_encoding.md (R80 to R88, R93), total on any bytes, with the encoder and the
textual rendering (R100). The decoder works by the field patterns of R83; the table's rows are checked against it word
by word below. -/

namespace Sys2Proof

/-! ## The rows of the table and the forms -/

/-- The form of a row and its operands (30_encoding R86, R87). -/
def Instr.form : Instr → Form
  | .ldBcNn nn => .ldRrNn .bc nn
  | .ldAtBcA => .ldAtBcA
  | .incBc => .incRr .bc
  | .incB => .incR .b
  | .decB => .decR .b
  | .ldBN n => .ldRN .b n
  | .ldAAtBc => .ldAAtBc
  | .incC => .incR .c
  | .decC => .decR .c
  | .ldCN n => .ldRN .c n
  | .ldDeNn nn => .ldRrNn .de nn
  | .ldAtDeA => .ldAtDeA
  | .incDe => .incRr .de
  | .incD => .incR .d
  | .decD => .decR .d
  | .ldDN n => .ldRN .d n
  | .rla => .rla
  | .jrE e => .jr e
  | .ldAAtDe => .ldAAtDe
  | .incE => .incR .e
  | .decE => .decR .e
  | .ldEN n => .ldRN .e n
  | .jrNz e => .jrCc .nz e
  | .ldHlNn nn => .ldRrNn .hl nn
  | .ldAtHlIncA => .ldAtHlIncA
  | .incHl => .incRr .hl
  | .incH => .incR .h
  | .decH => .decR .h
  | .ldHN n => .ldRN .h n
  | .jrZ e => .jrCc .z e
  | .ldAAtHlInc => .ldAAtHlInc
  | .incL => .incR .l
  | .decL => .decR .l
  | .ldLN n => .ldRN .l n
  | .jrNc e => .jrCc .nc e
  | .ldSpNn nn => .ldRrNn .sp nn
  | .ldAtHlDecA => .ldAtHlDecA
  | .incSp => .incRr .sp
  | .jrC e => .jrCc .c e
  | .ldAAtHlDec => .ldAAtHlDec
  | .incA => .incR .a
  | .decA => .decR .a
  | .ldAN n => .ldRN .a n
  | .ldBB => .ldRR .b .b
  | .ldBC => .ldRR .b .c
  | .ldBD => .ldRR .b .d
  | .ldBE => .ldRR .b .e
  | .ldBH => .ldRR .b .h
  | .ldBL => .ldRR .b .l
  | .ldBAtHl => .ldRAtHl .b
  | .ldBA => .ldRR .b .a
  | .ldCB => .ldRR .c .b
  | .ldCC => .ldRR .c .c
  | .ldCD => .ldRR .c .d
  | .ldCE => .ldRR .c .e
  | .ldCH => .ldRR .c .h
  | .ldCL => .ldRR .c .l
  | .ldCAtHl => .ldRAtHl .c
  | .ldCA => .ldRR .c .a
  | .ldDB => .ldRR .d .b
  | .ldDC => .ldRR .d .c
  | .ldDD => .ldRR .d .d
  | .ldDE => .ldRR .d .e
  | .ldDH => .ldRR .d .h
  | .ldDL => .ldRR .d .l
  | .ldDAtHl => .ldRAtHl .d
  | .ldDA => .ldRR .d .a
  | .ldEB => .ldRR .e .b
  | .ldEC => .ldRR .e .c
  | .ldED => .ldRR .e .d
  | .ldEE => .ldRR .e .e
  | .ldEH => .ldRR .e .h
  | .ldEL => .ldRR .e .l
  | .ldEAtHl => .ldRAtHl .e
  | .ldEA => .ldRR .e .a
  | .ldHB => .ldRR .h .b
  | .ldHC => .ldRR .h .c
  | .ldHD => .ldRR .h .d
  | .ldHE => .ldRR .h .e
  | .ldHH => .ldRR .h .h
  | .ldHL => .ldRR .h .l
  | .ldHAtHl => .ldRAtHl .h
  | .ldHA => .ldRR .h .a
  | .ldLB => .ldRR .l .b
  | .ldLC => .ldRR .l .c
  | .ldLD => .ldRR .l .d
  | .ldLE => .ldRR .l .e
  | .ldLH => .ldRR .l .h
  | .ldLL => .ldRR .l .l
  | .ldLAtHl => .ldRAtHl .l
  | .ldLA => .ldRR .l .a
  | .ldAtHlB => .ldAtHlR .b
  | .ldAtHlC => .ldAtHlR .c
  | .ldAtHlD => .ldAtHlR .d
  | .ldAtHlE => .ldAtHlR .e
  | .ldAtHlH => .ldAtHlR .h
  | .ldAtHlL => .ldAtHlR .l
  | .ldAtHlA => .ldAtHlR .a
  | .ldAB => .ldRR .a .b
  | .ldAC => .ldRR .a .c
  | .ldAD => .ldRR .a .d
  | .ldAE => .ldRR .a .e
  | .ldAH => .ldRR .a .h
  | .ldAL => .ldRR .a .l
  | .ldAAtHl => .ldRAtHl .a
  | .ldAA => .ldRR .a .a
  | .xorB => .xorR .b
  | .xorC => .xorR .c
  | .xorD => .xorR .d
  | .xorE => .xorR .e
  | .xorH => .xorR .h
  | .xorL => .xorR .l
  | .xorA => .xorR .a
  | .popBc => .pop .bc
  | .jpNn nn => .jp nn
  | .pushBc => .push .bc
  | .ret => .ret
  | .callNn nn => .call nn
  | .popDe => .pop .de
  | .pushDe => .push .de
  | .ldhAtNA n => .ldhAtNA n
  | .popHl => .pop .hl
  | .ldAtCA => .ldAtCA
  | .pushHl => .push .hl
  | .ldAtNnA nn => .ldAtNnA nn
  | .ldhAAtN n => .ldhAAtN n
  | .popAf => .pop .af
  | .ldAAtC => .ldAAtC
  | .pushAf => .push .af
  | .ldAAtNn nn => .ldAAtNn nn
  | .cpN n => .cpN n
  | .rlB => .rlR .b
  | .rlC => .rlR .c
  | .rlD => .rlR .d
  | .rlE => .rlR .e
  | .rlH => .rlR .h
  | .rlL => .rlR .l
  | .rlA => .rlR .a
  | .bit0B => .bitBR 0 .b
  | .bit0C => .bitBR 0 .c
  | .bit0D => .bitBR 0 .d
  | .bit0E => .bitBR 0 .e
  | .bit0H => .bitBR 0 .h
  | .bit0L => .bitBR 0 .l
  | .bit0A => .bitBR 0 .a
  | .bit1B => .bitBR 1 .b
  | .bit1C => .bitBR 1 .c
  | .bit1D => .bitBR 1 .d
  | .bit1E => .bitBR 1 .e
  | .bit1H => .bitBR 1 .h
  | .bit1L => .bitBR 1 .l
  | .bit1A => .bitBR 1 .a
  | .bit2B => .bitBR 2 .b
  | .bit2C => .bitBR 2 .c
  | .bit2D => .bitBR 2 .d
  | .bit2E => .bitBR 2 .e
  | .bit2H => .bitBR 2 .h
  | .bit2L => .bitBR 2 .l
  | .bit2A => .bitBR 2 .a
  | .bit3B => .bitBR 3 .b
  | .bit3C => .bitBR 3 .c
  | .bit3D => .bitBR 3 .d
  | .bit3E => .bitBR 3 .e
  | .bit3H => .bitBR 3 .h
  | .bit3L => .bitBR 3 .l
  | .bit3A => .bitBR 3 .a
  | .bit4B => .bitBR 4 .b
  | .bit4C => .bitBR 4 .c
  | .bit4D => .bitBR 4 .d
  | .bit4E => .bitBR 4 .e
  | .bit4H => .bitBR 4 .h
  | .bit4L => .bitBR 4 .l
  | .bit4A => .bitBR 4 .a
  | .bit5B => .bitBR 5 .b
  | .bit5C => .bitBR 5 .c
  | .bit5D => .bitBR 5 .d
  | .bit5E => .bitBR 5 .e
  | .bit5H => .bitBR 5 .h
  | .bit5L => .bitBR 5 .l
  | .bit5A => .bitBR 5 .a
  | .bit6B => .bitBR 6 .b
  | .bit6C => .bitBR 6 .c
  | .bit6D => .bitBR 6 .d
  | .bit6E => .bitBR 6 .e
  | .bit6H => .bitBR 6 .h
  | .bit6L => .bitBR 6 .l
  | .bit6A => .bitBR 6 .a
  | .bit7B => .bitBR 7 .b
  | .bit7C => .bitBR 7 .c
  | .bit7D => .bitBR 7 .d
  | .bit7E => .bitBR 7 .e
  | .bit7H => .bitBR 7 .h
  | .bit7L => .bitBR 7 .l
  | .bit7A => .bitBR 7 .a

/-- The rows of `INC r`. -/
def Instr.ofIncR : Reg8 → Instr
  | .b => .incB
  | .c => .incC
  | .d => .incD
  | .e => .incE
  | .h => .incH
  | .l => .incL
  | .a => .incA

/-- The rows of `DEC r`. -/
def Instr.ofDecR : Reg8 → Instr
  | .b => .decB
  | .c => .decC
  | .d => .decD
  | .e => .decE
  | .h => .decH
  | .l => .decL
  | .a => .decA

/-- The rows of `XOR r`. -/
def Instr.ofXorR : Reg8 → Instr
  | .b => .xorB
  | .c => .xorC
  | .d => .xorD
  | .e => .xorE
  | .h => .xorH
  | .l => .xorL
  | .a => .xorA

/-- The rows of `RL r`. -/
def Instr.ofRlR : Reg8 → Instr
  | .b => .rlB
  | .c => .rlC
  | .d => .rlD
  | .e => .rlE
  | .h => .rlH
  | .l => .rlL
  | .a => .rlA

/-- The rows of `LD r,(HL)`. -/
def Instr.ofLdRAtHl : Reg8 → Instr
  | .b => .ldBAtHl
  | .c => .ldCAtHl
  | .d => .ldDAtHl
  | .e => .ldEAtHl
  | .h => .ldHAtHl
  | .l => .ldLAtHl
  | .a => .ldAAtHl

/-- The rows of `LD (HL),r`. -/
def Instr.ofLdAtHlR : Reg8 → Instr
  | .b => .ldAtHlB
  | .c => .ldAtHlC
  | .d => .ldAtHlD
  | .e => .ldAtHlE
  | .h => .ldAtHlH
  | .l => .ldAtHlL
  | .a => .ldAtHlA

/-- The rows of `LD r,n`. -/
def Instr.ofLdRN : Reg8 → Byte → Instr
  | .b, n => .ldBN n
  | .c, n => .ldCN n
  | .d, n => .ldDN n
  | .e, n => .ldEN n
  | .h, n => .ldHN n
  | .l, n => .ldLN n
  | .a, n => .ldAN n

/-- The rows of `INC rr`. -/
def Instr.ofIncRr : Reg16 → Instr
  | .bc => .incBc
  | .de => .incDe
  | .hl => .incHl
  | .sp => .incSp

/-- The rows of `LD rr,nn`. -/
def Instr.ofLdRrNn : Reg16 → Word → Instr
  | .bc, nn => .ldBcNn nn
  | .de, nn => .ldDeNn nn
  | .hl, nn => .ldHlNn nn
  | .sp, nn => .ldSpNn nn

/-- The rows of `PUSH rr`. -/
def Instr.ofPush : Pair → Instr
  | .bc => .pushBc
  | .de => .pushDe
  | .hl => .pushHl
  | .af => .pushAf

/-- The rows of `POP rr`. -/
def Instr.ofPop : Pair → Instr
  | .bc => .popBc
  | .de => .popDe
  | .hl => .popHl
  | .af => .popAf

/-- The rows of `JR cc,e`. -/
def Instr.ofJrCc : Cond → Byte → Instr
  | .nz, e => .jrNz e
  | .z, e => .jrZ e
  | .nc, e => .jrNc e
  | .c, e => .jrC e

/-- The rows of `LD r,r'`, destination first. -/
def Instr.ofLdRR : Reg8 → Reg8 → Instr
  | .b, .b => .ldBB
  | .b, .c => .ldBC
  | .b, .d => .ldBD
  | .b, .e => .ldBE
  | .b, .h => .ldBH
  | .b, .l => .ldBL
  | .b, .a => .ldBA
  | .c, .b => .ldCB
  | .c, .c => .ldCC
  | .c, .d => .ldCD
  | .c, .e => .ldCE
  | .c, .h => .ldCH
  | .c, .l => .ldCL
  | .c, .a => .ldCA
  | .d, .b => .ldDB
  | .d, .c => .ldDC
  | .d, .d => .ldDD
  | .d, .e => .ldDE
  | .d, .h => .ldDH
  | .d, .l => .ldDL
  | .d, .a => .ldDA
  | .e, .b => .ldEB
  | .e, .c => .ldEC
  | .e, .d => .ldED
  | .e, .e => .ldEE
  | .e, .h => .ldEH
  | .e, .l => .ldEL
  | .e, .a => .ldEA
  | .h, .b => .ldHB
  | .h, .c => .ldHC
  | .h, .d => .ldHD
  | .h, .e => .ldHE
  | .h, .h => .ldHH
  | .h, .l => .ldHL
  | .h, .a => .ldHA
  | .l, .b => .ldLB
  | .l, .c => .ldLC
  | .l, .d => .ldLD
  | .l, .e => .ldLE
  | .l, .h => .ldLH
  | .l, .l => .ldLL
  | .l, .a => .ldLA
  | .a, .b => .ldAB
  | .a, .c => .ldAC
  | .a, .d => .ldAD
  | .a, .e => .ldAE
  | .a, .h => .ldAH
  | .a, .l => .ldAL
  | .a, .a => .ldAA

/-- The rows of `BIT b,r`. -/
def Instr.ofBitBR (b : Fin 8) (r : Reg8) : Instr :=
  match b.val, r with
  | 0, .b => .bit0B
  | 0, .c => .bit0C
  | 0, .d => .bit0D
  | 0, .e => .bit0E
  | 0, .h => .bit0H
  | 0, .l => .bit0L
  | 0, .a => .bit0A
  | 1, .b => .bit1B
  | 1, .c => .bit1C
  | 1, .d => .bit1D
  | 1, .e => .bit1E
  | 1, .h => .bit1H
  | 1, .l => .bit1L
  | 1, .a => .bit1A
  | 2, .b => .bit2B
  | 2, .c => .bit2C
  | 2, .d => .bit2D
  | 2, .e => .bit2E
  | 2, .h => .bit2H
  | 2, .l => .bit2L
  | 2, .a => .bit2A
  | 3, .b => .bit3B
  | 3, .c => .bit3C
  | 3, .d => .bit3D
  | 3, .e => .bit3E
  | 3, .h => .bit3H
  | 3, .l => .bit3L
  | 3, .a => .bit3A
  | 4, .b => .bit4B
  | 4, .c => .bit4C
  | 4, .d => .bit4D
  | 4, .e => .bit4E
  | 4, .h => .bit4H
  | 4, .l => .bit4L
  | 4, .a => .bit4A
  | 5, .b => .bit5B
  | 5, .c => .bit5C
  | 5, .d => .bit5D
  | 5, .e => .bit5E
  | 5, .h => .bit5H
  | 5, .l => .bit5L
  | 5, .a => .bit5A
  | 6, .b => .bit6B
  | 6, .c => .bit6C
  | 6, .d => .bit6D
  | 6, .e => .bit6E
  | 6, .h => .bit6H
  | 6, .l => .bit6L
  | 6, .a => .bit6A
  | _, .b => .bit7B
  | _, .c => .bit7C
  | _, .d => .bit7D
  | _, .e => .bit7E
  | _, .h => .bit7H
  | _, .l => .bit7L
  | _, .a => .bit7A

/-- The instruction of a form and its operands: the row of the table that the form's fields select. -/
def Form.instr : Form → Instr
  | .incR r => Instr.ofIncR r
  | .decR r => Instr.ofDecR r
  | .incRr rr => Instr.ofIncRr rr
  | .xorR r => Instr.ofXorR r
  | .cpN n => .cpN n
  | .bitBR b r => Instr.ofBitBR b r
  | .rla => .rla
  | .rlR r => Instr.ofRlR r
  | .ldRR dst src => Instr.ofLdRR dst src
  | .ldRN r n => Instr.ofLdRN r n
  | .ldRrNn rr nn => Instr.ofLdRrNn rr nn
  | .ldRAtHl r => Instr.ofLdRAtHl r
  | .ldAtHlR r => Instr.ofLdAtHlR r
  | .ldAAtBc => .ldAAtBc
  | .ldAAtDe => .ldAAtDe
  | .ldAtBcA => .ldAtBcA
  | .ldAtDeA => .ldAtDeA
  | .ldAtHlIncA => .ldAtHlIncA
  | .ldAAtHlInc => .ldAAtHlInc
  | .ldAtHlDecA => .ldAtHlDecA
  | .ldAAtHlDec => .ldAAtHlDec
  | .ldhAtNA n => .ldhAtNA n
  | .ldhAAtN n => .ldhAAtN n
  | .ldAtCA => .ldAtCA
  | .ldAAtC => .ldAAtC
  | .ldAtNnA nn => .ldAtNnA nn
  | .ldAAtNn nn => .ldAAtNn nn
  | .push p => Instr.ofPush p
  | .pop p => Instr.ofPop p
  | .call nn => .callNn nn
  | .ret => .ret
  | .jrCc cc e => Instr.ofJrCc cc e
  | .jr e => .jrE e
  | .jp nn => .jpNn nn

/-- The instruction's length in bytes (30_encoding R82, R86, R87). -/
def Form.len : Form → Nat
  | .incR _ | .decR _ | .incRr _ | .xorR _ | .rla | .ldRR _ _ | .ldRAtHl _ | .ldAtHlR _ => 1
  | .ldAAtBc | .ldAAtDe | .ldAtBcA | .ldAtDeA => 1
  | .ldAtHlIncA | .ldAAtHlInc | .ldAtHlDecA | .ldAAtHlDec | .ldAtCA | .ldAAtC => 1
  | .push _ | .pop _ | .ret => 1
  | .cpN _ | .ldRN _ _ | .ldhAtNA _ | .ldhAAtN _ | .jrCc _ _ | .jr _ => 2
  | .bitBR _ _ | .rlR _ => 2
  | .ldRrNn _ _ | .ldAtNnA _ | .ldAAtNn _ | .call _ | .jp _ => 3

/-! ## Field codes (R83). Every code is from general knowledge (92_eei_decisions D3; log entry 3). -/

/-- r: B 0, C 1, D 2, E 3, H 4, L 5, A 7. -/
def Reg8.code : Reg8 → BitVec 3
  | .b => 0 | .c => 1 | .d => 2 | .e => 3 | .h => 4 | .l => 5 | .a => 7

/-- Code 6 is not a register. -/
def Reg8.ofCode (k : BitVec 3) : Option Reg8 :=
  match k.toNat with
  | 0 => some .b | 1 => some .c | 2 => some .d | 3 => some .e | 4 => some .h | 5 => some .l | 6 => none | _ => some .a

/-- rr of `LD rr,nn` and `INC rr`. -/
def Reg16.code : Reg16 → BitVec 2
  | .bc => 0 | .de => 1 | .hl => 2 | .sp => 3

def Reg16.ofCode (k : BitVec 2) : Reg16 :=
  match k.toNat with
  | 0 => .bc | 1 => .de | 2 => .hl | _ => .sp

/-- rr of `PUSH` and `POP`. -/
def Pair.code : Pair → BitVec 2
  | .bc => 0 | .de => 1 | .hl => 2 | .af => 3

def Pair.ofCode (k : BitVec 2) : Pair :=
  match k.toNat with
  | 0 => .bc | 1 => .de | 2 => .hl | _ => .af

def Cond.code : Cond → BitVec 2
  | .nz => 0 | .z => 1 | .nc => 2 | .c => 3

def Cond.ofCode (k : BitVec 2) : Cond :=
  match k.toNat with
  | 0 => .nz | 1 => .z | 2 => .nc | _ => .c

/-- The field positions inside a byte: `xx yyy zzz` (R83). -/
def fieldX (op : Byte) : Nat := (op.extractLsb' 6 2).toNat
def fieldY (op : Byte) : BitVec 3 := op.extractLsb' 3 3
def fieldZ (op : Byte) : BitVec 3 := op.extractLsb' 0 3

/-- The field pp of `00 pp 0001`, `00 pp 0011`, `11 pp 0001`, `11 pp 0101`. -/
def fieldP (op : Byte) : BitVec 2 := op.extractLsb' 4 2

/-- Bit 3, which is 0 in the four patterns with a field pp. -/
def fieldQ (op : Byte) : Bool := op.getLsbD 3

/-- The field cc of `00 1cc 000`. -/
def fieldCc (op : Byte) : BitVec 2 := op.extractLsb' 3 2

/-! ## The decoder -/

/-- An entry of the primary table: the format and the instruction of the operand (R82, R86). -/
inductive Entry where
  | op (f : Form)           -- OP
  | n8 (g : Byte → Form)    -- OP_N8
  | e8 (g : Byte → Form)    -- OP_E8
  | n16 (g : Word → Form)   -- OP_N16

/-- `00 yyy zzz`. -/
def primary0 (op : Byte) : Option Entry :=
  match (fieldZ op).toNat with
  | 0 => match (fieldY op).toNat with
    | 0 | 1 | 2 => none
    | 3 => some (.e8 .jr)
    | _ => some (.e8 (.jrCc (Cond.ofCode (fieldCc op))))
  | 1 => if fieldQ op then none else some (.n16 (.ldRrNn (Reg16.ofCode (fieldP op))))
  | 2 => match (fieldY op).toNat with
    | 0 => some (.op .ldAtBcA)
    | 1 => some (.op .ldAAtBc)
    | 2 => some (.op .ldAtDeA)
    | 3 => some (.op .ldAAtDe)
    | 4 => some (.op .ldAtHlIncA)
    | 5 => some (.op .ldAAtHlInc)
    | 6 => some (.op .ldAtHlDecA)
    | _ => some (.op .ldAAtHlDec)
  | 3 => if fieldQ op then none else some (.op (.incRr (Reg16.ofCode (fieldP op))))
  | 4 => (Reg8.ofCode (fieldY op)).map fun r => .op (.incR r)
  | 5 => (Reg8.ofCode (fieldY op)).map fun r => .op (.decR r)
  | 6 => (Reg8.ofCode (fieldY op)).map fun r => .n8 (.ldRN r)
  | _ => if (fieldY op).toNat = 2 then some (.op .rla) else none

/-- `01 ddd sss`: code 6 is the byte at HL; both 6 (0x76) is not modelled. -/
def primary1 (op : Byte) : Option Entry :=
  match Reg8.ofCode (fieldY op), Reg8.ofCode (fieldZ op) with
  | some dst, some src => some (.op (.ldRR dst src))
  | some dst, none => some (.op (.ldRAtHl dst))
  | none, some src => some (.op (.ldAtHlR src))
  | none, none => none

/-- `10 101 sss` is XOR r; the rest of the quarter is not modelled. -/
def primary2 (op : Byte) : Option Entry :=
  if (fieldY op).toNat = 5 then (Reg8.ofCode (fieldZ op)).map fun r => .op (.xorR r) else none

/-- `11 yyy zzz`. -/
def primary3 (op : Byte) : Option Entry :=
  match (fieldZ op).toNat, (fieldY op).toNat with
  | 0, 4 => some (.n8 .ldhAtNA)
  | 0, 6 => some (.n8 .ldhAAtN)
  | 1, 1 => some (.op .ret)
  | 1, _ => if fieldQ op then none else some (.op (.pop (Pair.ofCode (fieldP op))))
  | 2, 4 => some (.op .ldAtCA)
  | 2, 5 => some (.n16 .ldAtNnA)
  | 2, 6 => some (.op .ldAAtC)
  | 2, 7 => some (.n16 .ldAAtNn)
  | 3, 0 => some (.n16 .jp)
  | 5, 1 => some (.n16 .call)
  | 5, _ => if fieldQ op then none else some (.op (.push (Pair.ofCode (fieldP op))))
  | 6, 7 => some (.n8 .cpN)
  | _, _ => none

/-- The primary table (R86): `none` is "unrecognized", the 124 values of R93 (and 0xCB, which `decode` takes first). -/
def primary (op : Byte) : Option Entry :=
  match fieldX op with
  | 0 => primary0 op
  | 1 => primary1 op
  | 2 => primary2 op
  | _ => primary3 op

/-- The secondary table, by the sub-opcode after 0xCB (R87): `none` is "unimplemented", the 193 values of R93. -/
def secondary (sub : Byte) : Option Form :=
  match fieldX sub with
  | 0 => if (fieldY sub).toNat = 2 then (Reg8.ofCode (fieldZ sub)).map .rlR else none
  | 1 => (Reg8.ofCode (fieldZ sub)).map fun r => .bitBR (fieldY sub).toFin r
  | _ => none

/-- The primary table of a machine: its entries at the values of `MODELLED_PRIMARY` (R81). -/
def primaryAt (c : Config) (op : Byte) : Option Entry :=
  (primary op).filter fun _ => c.modelledPrimary.contains op

/-- The secondary table of a machine: its entries at the values of `MODELLED_CB` (R81). -/
def secondaryAt (c : Config) (sub : Byte) : Option Form :=
  (secondary sub).filter fun _ => c.modelledCb.contains sub

/-- What the decoder answers (R80, R81): an instruction with the bytes after it, or the name of why there is none. -/
inductive Decoded where
  | instr (i : Instr) (rest : List Byte)   -- decode success
  | unknown (op : Byte)                    -- no entry in the primary table
  | unimplemented (sub : Byte)             -- 0xCB and no entry in the secondary table
  | short (k : Nat)                        -- byte k of the instruction is needed and there is none
deriving DecidableEq, Repr

/-- The byte 0xCB, the one opcode numeral of the source. -/
def cbByte : Byte := 0xCB

/-- `nn` of its two bytes in fetch order, under `IMM16_ORDER`: decided {byte 2, byte 1} (R84; 92_eei_decisions D5; log
entry 5). -/
def imm16 (order : ByteOrder) (byte1 byte2 : Byte) : Word :=
  match order with
  | .lowFirst => Word.ofBytes byte2 byte1
  | .highFirst => Word.ofBytes byte1 byte2

/-- The two bytes of `nn` in fetch order. -/
def imm16Bytes (order : ByteOrder) (nn : Word) : List Byte :=
  match order with
  | .lowFirst => [nn.low, nn.high]
  | .highFirst => [nn.high, nn.low]

/-- The operand bytes of an entry, taken from the tail (R81, R85). -/
def Entry.take (order : ByteOrder) (tail : List Byte) : Entry → Decoded
  | .op f => .instr f.instr tail
  | .n8 g => match tail with
    | n :: rest => .instr (g n).instr rest
    | [] => .short 1
  | .e8 g => match tail with
    | e :: rest => .instr (g e).instr rest
    | [] => .short 1
  | .n16 g => match tail with
    | b1 :: b2 :: rest => .instr (g (imm16 order b1 b2)).instr rest
    | [_] => .short 2
    | [] => .short 1

/-- The decoder on the bytes from PC to the end of Memory, in R81's order: the opcode decides before any tail byte is
read. -/
def decodeAt (c : Config) : List Byte → Decoded
  | [] => .short 0
  | op :: tail =>
    if op = cbByte then
      match tail with
      | [] => .short 1
      | sub :: rest =>
        match secondaryAt c sub with
        | some f => .instr f.instr rest
        | none => .unimplemented sub
    else
      match primaryAt c op with
      | some entry => entry.take c.imm16Order tail
      | none => .unknown op

/-- The decoder of the decided machine. -/
def decode (bytes : List Byte) : Decoded := decodeAt Config.decided bytes

/-! ## The encoder -/

/-- The byte `xx yyy zzz`. -/
def byteXYZ (x : BitVec 2) (y z : BitVec 3) : Byte := x ++ y ++ z

/-- The byte `xx pp zzzz`. -/
def byteXPZ (x p : BitVec 2) (z : BitVec 4) : Byte := x ++ p ++ z

/-- The instruction's bytes in fetch order, by the patterns of R83 and the fixed values of R86. -/
def Form.encodeAt (order : ByteOrder) : Form → List Byte
  | .incR r => [byteXYZ 0 r.code 4]
  | .decR r => [byteXYZ 0 r.code 5]
  | .incRr rr => [byteXPZ 0 rr.code 3]
  | .xorR r => [byteXYZ 2 5 r.code]
  | .cpN n => [0xFE, n]
  | .bitBR b r => [cbByte, byteXYZ 1 (BitVec.ofFin b) r.code]
  | .rla => [0x17]
  | .rlR r => [cbByte, byteXYZ 0 2 r.code]
  | .ldRR dst src => [byteXYZ 1 dst.code src.code]
  | .ldRN r n => [byteXYZ 0 r.code 6, n]
  | .ldRrNn rr nn => byteXPZ 0 rr.code 1 :: imm16Bytes order nn
  | .ldRAtHl r => [byteXYZ 1 r.code 6]
  | .ldAtHlR r => [byteXYZ 1 6 r.code]
  | .ldAAtBc => [0x0A]
  | .ldAAtDe => [0x1A]
  | .ldAtBcA => [0x02]
  | .ldAtDeA => [0x12]
  | .ldAtHlIncA => [0x22]
  | .ldAAtHlInc => [0x2A]
  | .ldAtHlDecA => [0x32]
  | .ldAAtHlDec => [0x3A]
  | .ldhAtNA n => [0xE0, n]
  | .ldhAAtN n => [0xF0, n]
  | .ldAtCA => [0xE2]
  | .ldAAtC => [0xF2]
  | .ldAtNnA nn => 0xEA :: imm16Bytes order nn
  | .ldAAtNn nn => 0xFA :: imm16Bytes order nn
  | .push p => [byteXPZ 3 p.code 5]
  | .pop p => [byteXPZ 3 p.code 1]
  | .call nn => 0xCD :: imm16Bytes order nn
  | .ret => [0xC9]
  | .jrCc cc e => [byteXYZ 0 (1#1 ++ cc.code) 0, e]
  | .jr e => [0x18, e]
  | .jp nn => 0xC3 :: imm16Bytes order nn

/-- The bytes of a form in the decided machine. -/
def Form.encode (f : Form) : List Byte := f.encodeAt Config.decided.imm16Order

/-- The bytes of an instruction in fetch order. -/
def encode (i : Instr) : List Byte := i.form.encode

/-- The same under a configuration's order of two-byte immediates. -/
def encodeAt (c : Config) (i : Instr) : List Byte := i.form.encodeAt c.imm16Order

/-- Whether a machine has a form: its opcode, or its sub-opcode behind 0xCB, is in the modelled set (00_scope R7). -/
def Form.modelled (c : Config) (f : Form) : Bool :=
  match f.encode with
  | [] => false
  | [op] => c.modelledPrimary.contains op
  | op :: next :: _ => if op = cbByte then c.modelledCb.contains next else c.modelledPrimary.contains op

/-! ## The table's own numbering of an instruction's bits -/

/-- The three bytes, first at the lowest address, of an instruction whose bits are `w` as spec/opcode_table.json numbers
them. The table numbers a row behind 0xCB with byte 0 as the MORE significant byte (30_encoding R88: `(b0 × 256 + b1)`),
and every other row by byte 0 alone, so later bytes count on from bit 8 (log entry 14). -/
def tableBytes (nbits w : Nat) : List Byte :=
  let v : BitVec 24 := BitVec.ofNat 24 (w % 2 ^ nbits)
  if nbits = 16 ∧ v.extractLsb' 8 8 = cbByte then
    [cbByte, v.extractLsb' 0 8, v.extractLsb' 16 8]
  else
    [v.extractLsb' 0 8, v.extractLsb' 8 8, v.extractLsb' 16 8]

/-- The instruction the decoder reads from an instruction of the table, operand bytes beyond `nbits` zero. -/
def decodeTableWord (nbits w : Nat) : Option Instr :=
  match decode (tableBytes nbits w) with
  | .instr i _ => some i
  | .unknown _ | .unimplemented _ | .short _ => none

/-! ## The rendering (R100): display only, no rule depends on it (92_eei_decisions D13; log entry 13). -/

/-- One hexadecimal digit, capital letters. -/
def hexDigit (k : Nat) : Char :=
  if k < 10 then Char.ofNat (48 + k) else Char.ofNat (55 + k)

/-- `0x` and two digits. -/
def hexByte (b : Byte) : List Char :=
  ['0', 'x', hexDigit (b.toNat / 16), hexDigit (b.toNat % 16)]

/-- `0x` and four digits ("LD BC,0x1234"). -/
def hexWord (w : Word) : List Char :=
  hexByte w.high ++ [hexDigit (w.low.toNat / 16), hexDigit (w.low.toNat % 16)]

/-- A number below 1000 in decimal, without leading zeros. -/
def decimal (k : Nat) : List Char :=
  let digit (j : Nat) : Char := Char.ofNat (48 + j % 10)
  if k < 10 then [digit k] else if k < 100 then [digit (k / 10), digit k]
  else [digit (k / 100), digit (k / 10), digit k]

/-- The displacement as a signed decimal number ("JR NZ, 10"). -/
def signedDecimal (e : Byte) : List Char :=
  if e.toNat < 128 then decimal e.toNat else '-' :: decimal (256 - e.toNat)

def Reg8.chars : Reg8 → List Char
  | .b => ['B'] | .c => ['C'] | .d => ['D'] | .e => ['E'] | .h => ['H'] | .l => ['L'] | .a => ['A']

def Reg16.chars : Reg16 → List Char
  | .bc => ['B', 'C'] | .de => ['D', 'E'] | .hl => ['H', 'L'] | .sp => ['S', 'P']

def Pair.chars : Pair → List Char
  | .bc => ['B', 'C'] | .de => ['D', 'E'] | .hl => ['H', 'L'] | .af => ['A', 'F']

def Cond.chars : Cond → List Char
  | .nz => ['N', 'Z'] | .z => ['Z'] | .nc => ['N', 'C'] | .c => ['C']

/-- The characters of the rendering: mnemonic, a space, destination, a comma, source; memory operands in parentheses. -/
def Form.render : Form → List Char
  | .incR r => "INC ".toList ++ r.chars
  | .decR r => "DEC ".toList ++ r.chars
  | .incRr rr => "INC ".toList ++ rr.chars
  | .xorR r => "XOR ".toList ++ r.chars
  | .cpN n => "CP ".toList ++ hexByte n
  | .bitBR b r => "BIT ".toList ++ decimal b.val ++ [','] ++ r.chars
  | .rla => "RLA".toList
  | .rlR r => "RL ".toList ++ r.chars
  | .ldRR dst src => "LD ".toList ++ dst.chars ++ [','] ++ src.chars
  | .ldRN r n => "LD ".toList ++ r.chars ++ [','] ++ hexByte n
  | .ldRrNn rr nn => "LD ".toList ++ rr.chars ++ [','] ++ hexWord nn
  | .ldRAtHl r => "LD ".toList ++ r.chars ++ ",(HL)".toList
  | .ldAtHlR r => "LD (HL),".toList ++ r.chars
  | .ldAAtBc => "LD A,(BC)".toList
  | .ldAAtDe => "LD A,(DE)".toList
  | .ldAtBcA => "LD (BC),A".toList
  | .ldAtDeA => "LD (DE),A".toList
  | .ldAtHlIncA => "LD (HL+),A".toList
  | .ldAAtHlInc => "LD A,(HL+)".toList
  | .ldAtHlDecA => "LD (HL-),A".toList
  | .ldAAtHlDec => "LD A,(HL-)".toList
  | .ldhAtNA n => "LDH (".toList ++ hexByte n ++ "),A".toList
  | .ldhAAtN n => "LDH A,(".toList ++ hexByte n ++ [')']
  | .ldAtCA => "LD (C),A".toList
  | .ldAAtC => "LD A,(C)".toList
  | .ldAtNnA nn => "LD (".toList ++ hexWord nn ++ "),A".toList
  | .ldAAtNn nn => "LD A,(".toList ++ hexWord nn ++ [')']
  | .push p => "PUSH ".toList ++ p.chars
  | .pop p => "POP ".toList ++ p.chars
  | .call nn => "CALL ".toList ++ hexWord nn
  | .ret => "RET".toList
  | .jrCc cc e => "JR ".toList ++ cc.chars ++ [',', ' '] ++ signedDecimal e
  | .jr e => "JR ".toList ++ signedDecimal e
  | .jp nn => "JP ".toList ++ hexWord nn

/-- The textual rendering of a decoded instruction, for a debugger or log. -/
def render (i : Instr) : String := String.ofList i.form.render

/-! ## The table's words, written out -/

/-- Part 1 of the table's encodings written out, operand bytes n = 5A, e = FB, nn = 1234. -/
def encodingWords1 : List (List Byte × Instr) :=
  [ ([0b00000001, 0x34, 0x12], .ldBcNn 0x1234),
    ([0b00000010], .ldAtBcA),
    ([0b00000011], .incBc),
    ([0b00000100], .incB),
    ([0b00000101], .decB),
    ([0b00000110, 0x5A], .ldBN 0x5A),
    ([0b00001010], .ldAAtBc),
    ([0b00001100], .incC),
    ([0b00001101], .decC),
    ([0b00001110, 0x5A], .ldCN 0x5A),
    ([0b00010001, 0x34, 0x12], .ldDeNn 0x1234),
    ([0b00010010], .ldAtDeA),
    ([0b00010011], .incDe),
    ([0b00010100], .incD),
    ([0b00010101], .decD),
    ([0b00010110, 0x5A], .ldDN 0x5A),
    ([0b00010111], .rla),
    ([0b00011000, 0xFB], .jrE 0xFB),
    ([0b00011010], .ldAAtDe),
    ([0b00011100], .incE) ]

/-- Part 2 of the table's encodings written out, operand bytes n = 5A, e = FB, nn = 1234. -/
def encodingWords2 : List (List Byte × Instr) :=
  [ ([0b00011101], .decE),
    ([0b00011110, 0x5A], .ldEN 0x5A),
    ([0b00100000, 0xFB], .jrNz 0xFB),
    ([0b00100001, 0x34, 0x12], .ldHlNn 0x1234),
    ([0b00100010], .ldAtHlIncA),
    ([0b00100011], .incHl),
    ([0b00100100], .incH),
    ([0b00100101], .decH),
    ([0b00100110, 0x5A], .ldHN 0x5A),
    ([0b00101000, 0xFB], .jrZ 0xFB),
    ([0b00101010], .ldAAtHlInc),
    ([0b00101100], .incL),
    ([0b00101101], .decL),
    ([0b00101110, 0x5A], .ldLN 0x5A),
    ([0b00110000, 0xFB], .jrNc 0xFB),
    ([0b00110001, 0x34, 0x12], .ldSpNn 0x1234),
    ([0b00110010], .ldAtHlDecA),
    ([0b00110011], .incSp),
    ([0b00111000, 0xFB], .jrC 0xFB),
    ([0b00111010], .ldAAtHlDec) ]

/-- Part 3 of the table's encodings written out, operand bytes n = 5A, e = FB, nn = 1234. -/
def encodingWords3 : List (List Byte × Instr) :=
  [ ([0b00111100], .incA),
    ([0b00111101], .decA),
    ([0b00111110, 0x5A], .ldAN 0x5A),
    ([0b01000000], .ldBB),
    ([0b01000001], .ldBC),
    ([0b01000010], .ldBD),
    ([0b01000011], .ldBE),
    ([0b01000100], .ldBH),
    ([0b01000101], .ldBL),
    ([0b01000110], .ldBAtHl),
    ([0b01000111], .ldBA),
    ([0b01001000], .ldCB),
    ([0b01001001], .ldCC),
    ([0b01001010], .ldCD),
    ([0b01001011], .ldCE),
    ([0b01001100], .ldCH),
    ([0b01001101], .ldCL),
    ([0b01001110], .ldCAtHl),
    ([0b01001111], .ldCA),
    ([0b01010000], .ldDB) ]

/-- Part 4 of the table's encodings written out, operand bytes n = 5A, e = FB, nn = 1234. -/
def encodingWords4 : List (List Byte × Instr) :=
  [ ([0b01010001], .ldDC),
    ([0b01010010], .ldDD),
    ([0b01010011], .ldDE),
    ([0b01010100], .ldDH),
    ([0b01010101], .ldDL),
    ([0b01010110], .ldDAtHl),
    ([0b01010111], .ldDA),
    ([0b01011000], .ldEB),
    ([0b01011001], .ldEC),
    ([0b01011010], .ldED),
    ([0b01011011], .ldEE),
    ([0b01011100], .ldEH),
    ([0b01011101], .ldEL),
    ([0b01011110], .ldEAtHl),
    ([0b01011111], .ldEA),
    ([0b01100000], .ldHB),
    ([0b01100001], .ldHC),
    ([0b01100010], .ldHD),
    ([0b01100011], .ldHE),
    ([0b01100100], .ldHH) ]

/-- Part 5 of the table's encodings written out, operand bytes n = 5A, e = FB, nn = 1234. -/
def encodingWords5 : List (List Byte × Instr) :=
  [ ([0b01100101], .ldHL),
    ([0b01100110], .ldHAtHl),
    ([0b01100111], .ldHA),
    ([0b01101000], .ldLB),
    ([0b01101001], .ldLC),
    ([0b01101010], .ldLD),
    ([0b01101011], .ldLE),
    ([0b01101100], .ldLH),
    ([0b01101101], .ldLL),
    ([0b01101110], .ldLAtHl),
    ([0b01101111], .ldLA),
    ([0b01110000], .ldAtHlB),
    ([0b01110001], .ldAtHlC),
    ([0b01110010], .ldAtHlD),
    ([0b01110011], .ldAtHlE),
    ([0b01110100], .ldAtHlH),
    ([0b01110101], .ldAtHlL),
    ([0b01110111], .ldAtHlA),
    ([0b01111000], .ldAB),
    ([0b01111001], .ldAC) ]

/-- Part 6 of the table's encodings written out, operand bytes n = 5A, e = FB, nn = 1234. -/
def encodingWords6 : List (List Byte × Instr) :=
  [ ([0b01111010], .ldAD),
    ([0b01111011], .ldAE),
    ([0b01111100], .ldAH),
    ([0b01111101], .ldAL),
    ([0b01111110], .ldAAtHl),
    ([0b01111111], .ldAA),
    ([0b10101000], .xorB),
    ([0b10101001], .xorC),
    ([0b10101010], .xorD),
    ([0b10101011], .xorE),
    ([0b10101100], .xorH),
    ([0b10101101], .xorL),
    ([0b10101111], .xorA),
    ([0b11000001], .popBc),
    ([0b11000011, 0x34, 0x12], .jpNn 0x1234),
    ([0b11000101], .pushBc),
    ([0b11001001], .ret),
    ([0b11001101, 0x34, 0x12], .callNn 0x1234),
    ([0b11010001], .popDe),
    ([0b11010101], .pushDe) ]

/-- Part 7 of the table's encodings written out, operand bytes n = 5A, e = FB, nn = 1234. -/
def encodingWords7 : List (List Byte × Instr) :=
  [ ([0b11100000, 0x5A], .ldhAtNA 0x5A),
    ([0b11100001], .popHl),
    ([0b11100010], .ldAtCA),
    ([0b11100101], .pushHl),
    ([0b11101010, 0x34, 0x12], .ldAtNnA 0x1234),
    ([0b11110000, 0x5A], .ldhAAtN 0x5A),
    ([0b11110001], .popAf),
    ([0b11110010], .ldAAtC),
    ([0b11110101], .pushAf),
    ([0b11111010, 0x34, 0x12], .ldAAtNn 0x1234),
    ([0b11111110, 0x5A], .cpN 0x5A),
    ([0b11001011, 0b00010000], .rlB),
    ([0b11001011, 0b00010001], .rlC),
    ([0b11001011, 0b00010010], .rlD),
    ([0b11001011, 0b00010011], .rlE),
    ([0b11001011, 0b00010100], .rlH),
    ([0b11001011, 0b00010101], .rlL),
    ([0b11001011, 0b00010111], .rlA),
    ([0b11001011, 0b01000000], .bit0B),
    ([0b11001011, 0b01000001], .bit0C) ]

/-- Part 8 of the table's encodings written out, operand bytes n = 5A, e = FB, nn = 1234. -/
def encodingWords8 : List (List Byte × Instr) :=
  [ ([0b11001011, 0b01000010], .bit0D),
    ([0b11001011, 0b01000011], .bit0E),
    ([0b11001011, 0b01000100], .bit0H),
    ([0b11001011, 0b01000101], .bit0L),
    ([0b11001011, 0b01000111], .bit0A),
    ([0b11001011, 0b01001000], .bit1B),
    ([0b11001011, 0b01001001], .bit1C),
    ([0b11001011, 0b01001010], .bit1D),
    ([0b11001011, 0b01001011], .bit1E),
    ([0b11001011, 0b01001100], .bit1H),
    ([0b11001011, 0b01001101], .bit1L),
    ([0b11001011, 0b01001111], .bit1A),
    ([0b11001011, 0b01010000], .bit2B),
    ([0b11001011, 0b01010001], .bit2C),
    ([0b11001011, 0b01010010], .bit2D),
    ([0b11001011, 0b01010011], .bit2E),
    ([0b11001011, 0b01010100], .bit2H),
    ([0b11001011, 0b01010101], .bit2L),
    ([0b11001011, 0b01010111], .bit2A),
    ([0b11001011, 0b01011000], .bit3B) ]

/-- Part 9 of the table's encodings written out, operand bytes n = 5A, e = FB, nn = 1234. -/
def encodingWords9 : List (List Byte × Instr) :=
  [ ([0b11001011, 0b01011001], .bit3C),
    ([0b11001011, 0b01011010], .bit3D),
    ([0b11001011, 0b01011011], .bit3E),
    ([0b11001011, 0b01011100], .bit3H),
    ([0b11001011, 0b01011101], .bit3L),
    ([0b11001011, 0b01011111], .bit3A),
    ([0b11001011, 0b01100000], .bit4B),
    ([0b11001011, 0b01100001], .bit4C),
    ([0b11001011, 0b01100010], .bit4D),
    ([0b11001011, 0b01100011], .bit4E),
    ([0b11001011, 0b01100100], .bit4H),
    ([0b11001011, 0b01100101], .bit4L),
    ([0b11001011, 0b01100111], .bit4A),
    ([0b11001011, 0b01101000], .bit5B),
    ([0b11001011, 0b01101001], .bit5C),
    ([0b11001011, 0b01101010], .bit5D),
    ([0b11001011, 0b01101011], .bit5E),
    ([0b11001011, 0b01101100], .bit5H),
    ([0b11001011, 0b01101101], .bit5L),
    ([0b11001011, 0b01101111], .bit5A) ]

/-- Part 10 of the table's encodings written out, operand bytes n = 5A, e = FB, nn = 1234. -/
def encodingWords10 : List (List Byte × Instr) :=
  [ ([0b11001011, 0b01110000], .bit6B),
    ([0b11001011, 0b01110001], .bit6C),
    ([0b11001011, 0b01110010], .bit6D),
    ([0b11001011, 0b01110011], .bit6E),
    ([0b11001011, 0b01110100], .bit6H),
    ([0b11001011, 0b01110101], .bit6L),
    ([0b11001011, 0b01110111], .bit6A),
    ([0b11001011, 0b01111000], .bit7B),
    ([0b11001011, 0b01111001], .bit7C),
    ([0b11001011, 0b01111010], .bit7D),
    ([0b11001011, 0b01111011], .bit7E),
    ([0b11001011, 0b01111100], .bit7H),
    ([0b11001011, 0b01111101], .bit7L),
    ([0b11001011, 0b01111111], .bit7A) ]

/-- Every row's bytes in fetch order, from the encoding column of spec/opcode_table.json (30_encoding R88). -/
def encodingWords : List (List Byte × Instr) :=
  encodingWords1 ++ encodingWords2 ++ encodingWords3 ++ encodingWords4 ++ encodingWords5 ++ encodingWords6 ++ encodingWords7 ++ encodingWords8 ++ encodingWords9 ++ encodingWords10

theorem decode_encodingWords1 : ∀ p ∈ encodingWords1, decode p.1 = .instr p.2 [] ∧ encode p.2 = p.1 := by decide

theorem decode_encodingWords2 : ∀ p ∈ encodingWords2, decode p.1 = .instr p.2 [] ∧ encode p.2 = p.1 := by decide

theorem decode_encodingWords3 : ∀ p ∈ encodingWords3, decode p.1 = .instr p.2 [] ∧ encode p.2 = p.1 := by decide

theorem decode_encodingWords4 : ∀ p ∈ encodingWords4, decode p.1 = .instr p.2 [] ∧ encode p.2 = p.1 := by decide

theorem decode_encodingWords5 : ∀ p ∈ encodingWords5, decode p.1 = .instr p.2 [] ∧ encode p.2 = p.1 := by decide

theorem decode_encodingWords6 : ∀ p ∈ encodingWords6, decode p.1 = .instr p.2 [] ∧ encode p.2 = p.1 := by decide

theorem decode_encodingWords7 : ∀ p ∈ encodingWords7, decode p.1 = .instr p.2 [] ∧ encode p.2 = p.1 := by decide

theorem decode_encodingWords8 : ∀ p ∈ encodingWords8, decode p.1 = .instr p.2 [] ∧ encode p.2 = p.1 := by decide

theorem decode_encodingWords9 : ∀ p ∈ encodingWords9, decode p.1 = .instr p.2 [] ∧ encode p.2 = p.1 := by decide

theorem decode_encodingWords10 : ∀ p ∈ encodingWords10, decode p.1 = .instr p.2 [] ∧ encode p.2 = p.1 := by decide

end Sys2Proof
end

