-- ==== Sys2Proof/WellFormed.lean ====
section
/-! DEFINITION. The checks on what is given to the machine from outside: an instruction, a configuration, an image. -/

namespace Sys2Proof

/-- Every operand value that the fields can hold is legal (30_encoding R94), and the types of the operands admit exactly
those values (r code 6 is no `Reg8`), so every instruction is well-formed: there is nothing to check. -/
def Instr.wellFormed (_ : Instr) : Bool := true

/-- The four flags stand at four different bits of the high nibble, "any other assignment ... to the high nibble would
satisfy the source equally" (92_eei_decisions D2, 90_conflicts C3). -/
def FlagPos.wellFormed (p : FlagPos) : Bool :=
  [p.z, p.n, p.h, p.c].all (fun k => 4 ≤ k && k ≤ 7) && decide [p.z, p.n, p.h, p.c].Nodup

/-- The modelled sets name only values that the tables R86 and R87 give an instruction, and the prefix 0xCB is among them
(00_scope R7); a smaller set is a machine with fewer instructions (92_eei_decisions D4). -/
def Config.setsWellFormed (c : Config) : Bool :=
  c.modelledPrimary.all (Config.decidedPrimary.contains ·) && c.modelledPrimary.contains 0xCB &&
    c.modelledCb.all (Config.decidedCb.contains ·)

/-- The configurations the spec admits: `MEM_SIZE` is 65536 or 65535 (00_scope R7); the flags and the sets as above; either
order of a two-byte immediate; at reset the low nibble of F is 0 and PC is 0 whatever the other registers hold
(10_state R36). -/
def Config.wellFormed (c : Config) : Bool :=
  (c.memSize == 65536 || c.memSize == 65535) && c.flagPos.wellFormed && c.setsWellFormed &&
    c.resetRegs.f &&& 0x0F == 0 && c.resetRegs.pc == 0

/-- An image fits if its length L satisfies 0 ≤ L ≤ `MEM_SIZE` (70_reset_and_hazards R221). -/
def Config.imageFits (c : Config) (firmware : List Byte) : Bool :=
  decide (firmware.length ≤ c.memSize)

end Sys2Proof
end

