-- ==== Sys2Proof/Machine/HostSurface.lean ====
section
/-! DEFINITION. The host control surface: construct, next, apply, snapshot (spec/00_scope.md R10, R11), and the step made
of next and apply (60_exceptions.md R191), over a configuration and a meaning of instructions. -/

namespace Sys2Proof.Machine

/-! ## construct -/

/-- `construct(FIRMWARE)` (70_reset_and_hazards R222): refused if the image is longer than `MEM_SIZE`. -/
def construct (c : Config) (firmware : List Byte) : Result :=
  if c.imageFits firmware then
    .next
      { a := c.resetRegs.a, b := c.resetRegs.b, c := c.resetRegs.c, d := c.resetRegs.d, e := c.resetRegs.e,
        h := c.resetRegs.h, l := c.resetRegs.l, f := c.resetRegs.f, sp := c.resetRegs.sp, pc := c.resetRegs.pc,
        run := .fetching, mem := Memory.image 0 firmware }
  else .refused (.imageTooLong firmware.length)

/-- A construction that names no image: the OPEN default image (92_eei_decisions D19; log entry 12). -/
def constructDefault (c : Config) : Result := construct c Config.defaultFirmware

/-! ## next -/

/-- What decoding at PC gives while RUN is Fetching: an instruction or an event. -/
inductive Fetched where
  | instr (i : Instr)
  | event (ev : Event)
deriving DecidableEq, Repr

/-- The decode step in the order of 30_encoding R81 and 60_exceptions R196. -/
def fetch (c : Config) (s : State) : Fetched :=
  if c.memSize ≤ s.pc.toNat then .event .halted
  else
    match decodeAt c (fetchBytes c s) with
    | .instr i _ => .instr i
    | .unknown op => .event (.unknownOpcode op s.pc)
    | .unimplemented sub => .event (.unimplementedOpcode sub s.pc)
    | .short k => .event (.indexFault (wordAddr s.pc + k))

/-- What `next()` returns: the instruction with its textual rendering, or the terminal run state with its record
(60_exceptions R191). -/
inductive NextResult where
  | decoded (i : Instr) (text : String)
  | ended (run : RunState)
deriving DecidableEq, Repr

/-- `next()`: the state after it, which differs in RUN alone, and what it returns. -/
def hostNext (c : Config) (s : State) : State × NextResult :=
  match s.run with
  | .fetching =>
    match fetch c s with
    | .instr i => (s, .decoded i (render i))
    | .event ev => (takeEvent s ev, .ended ev.runState)
  | terminal => (s, .ended terminal)

/-! ## apply and snapshot -/

/-- `apply(I)`, once, of the instruction that `next()` returns at this state; anything else is refused
(00_scope R11, 93_implementation_defined U13). -/
def hostApply (c : Config) (meaning : Instr → State → Result) (i : Instr) (s : State) : Result :=
  if s.run = .fetching ∧ fetch c s = .instr i then meaning i s else .refused .notPending

/-- What `snapshot()` returns: the register file, RUN and all `MEM_SIZE` bytes (60_exceptions R207). -/
structure Snapshot where
  regs : List Byte    -- A, B, C, D, E, H, L, F
  sp : Word
  pc : Word
  run : RunState
  bytes : List Byte
deriving DecidableEq, Repr

/-- `snapshot()`: a reading, it changes nothing. -/
def snapshot (c : Config) (s : State) : Snapshot :=
  { regs := [s.a, s.b, s.c, s.d, s.e, s.h, s.l, s.f], sp := s.sp, pc := s.pc, run := s.run,
    bytes := (List.range c.memSize).map s.mem.read }

/-! ## The step -/

/-- One step: `next()` followed by `apply` of its result, one atomic transition (00_scope R11, 92_eei_decisions D12; log
entry 8). A terminal state absorbs it (60_exceptions R197). -/
def stepWith (c : Config) (meaning : Instr → State → Result) (s : State) : Result :=
  match s.run with
  | .fetching =>
    match fetch c s with
    | .instr i => meaning i s
    | .event ev => .next (takeEvent s ev)
  | .unknownOpcode _ _ | .unimplementedOpcode _ _ | .halted | .faulted _ => .next s

/-- The state with an instruction of the table placed at PC and RUN Fetching: it stands for the load of an image from
outside (log entry 11). -/
def placeWord (c : Config) (s : State) (nbits w : Nat) : State :=
  { placeBytes c s s.pc.toNat (tableBytes nbits w) with run := .fetching }

end Sys2Proof.Machine
end

