-- ==== Sys2Proof/Machine/Step.lean ====
section
/-! DEFINITION. One step of the decided machine, and placing an instruction where it fetches. -/

namespace Sys2Proof.Machine

/-- `next()` followed by `apply` of its result, at `MEM_SIZE` = 65536. -/
def step (s : State) : Host.Outcome State Fault Refusal := stepWith Config.decided exec s

/-- An instruction of the table stored at PC, RUN Fetching (log entries 11 and 14). -/
def State.withFetchWord (s : State) (nbits w : Nat) : State := placeWord Config.decided s nbits w

end Sys2Proof.Machine
end

