-- ==== Sys2Proof/Machine/Forms.lean ====
section
/-! DEFINITION. The machine of an arbitrary configuration: every rule is written over the parameters of spec/00_scope.md
R7, so a claim can also be made for 65535 bytes, or for other places of the flags. `exec` and `step` are this machine at
`Config.decided` (Laws/Forms.lean). -/

namespace Sys2Proof.Machine

/-- The meaning of a form under a configuration (40_inc_dec to 45_control). -/
def runForm (c : Config) (f : Form) (s : State) : Result :=
  match f with
  | .incR r => incReg c r s
  | .decR r => decReg c r s
  | .incRr rr => incReg16 rr s
  | .xorR r => xorReg c r s
  | .cpN n => cpImm c n s
  | .bitBR b r => bitTest c b r s
  | .rla => rotateLeftA c s
  | .rlR r => rlReg c r s
  | .ldRR dst src => copyReg dst src s
  | .ldRN r n => loadImm r n s
  | .ldRrNn rr nn => loadImm16 rr nn s
  | .ldRAtHl r => loadAtHl c r s
  | .ldAtHlR r => storeAtHl c r s
  | .ldAAtBc => loadA c .bc s
  | .ldAAtDe => loadA c .de s
  | .ldAtBcA => storeA c .bc s
  | .ldAtDeA => storeA c .de s
  | .ldAtHlIncA => storeAHl c 1 s
  | .ldAAtHlInc => loadAHl c 1 s
  | .ldAtHlDecA => storeAHl c (-1) s
  | .ldAAtHlDec => loadAHl c (-1) s
  | .ldhAtNA n => storeZeroPage c n 2 s
  | .ldhAAtN n => loadZeroPage c n 2 s
  | .ldAtCA => storeZeroPage c s.c 1 s
  | .ldAAtC => loadZeroPage c s.c 1 s
  | .ldAtNnA nn => storeAbs c nn s
  | .ldAAtNn nn => loadAbs c nn s
  | .push p => pushPair c p s
  | .pop p => popPair c p s
  | .call nn => callAbs c nn s
  | .ret => returnSub c s
  | .jrCc cc e => jumpRelIf c cc e s
  | .jr e => jumpRel e s
  | .jp nn => jumpAbs nn s

/-- `apply(I)` under a configuration (30_encoding R96). -/
def execAt (c : Config) (i : Instr) (s : State) : Result := runForm c i.form s

/-- One step under a configuration. -/
def stepAt (c : Config) (s : State) : Result := stepWith c (execAt c) s

end Sys2Proof.Machine
end

