-- ==== Sys2Proof/Safety.lean ====
section
/-! DEFINITION. What a good state and a safe run are, in the terms claims use. -/

namespace Sys2Proof

/-- The general registers that a 16-bit operand is made of. -/
def Reg16.halves : Reg16 → List Reg8
  | .bc => [.b, .c] | .de => [.d, .e] | .hl => [.h, .l] | .sp => []

/-- The general registers that a pair is made of; AF's other half is F. -/
def Pair.halves : Pair → List Reg8
  | .bc => [.b, .c] | .de => [.d, .e] | .hl => [.h, .l] | .af => [.a]

end Sys2Proof

namespace Sys2Proof.Machine

/-- Bits 3 to 0 of F are zero (spec/10_state.md R27). -/
abbrev State.flagsClean (s : State) : Prop := s.f &&& 0x0F = 0

/-- The invariant of every state: F's low nibble is zero (10_state R27), Memory is in canonical form, and lists no
address that does not exist (20_memory R50). -/
def State.Inv (c : Config) (s : State) : Prop :=
  s.flagsClean ∧ s.mem.wf ∧ Memory.within c.memSize s.mem

/-- The states of the runs of a machine: constructed from an image, then stepped (60_exceptions R210). -/
inductive Reachable (c : Config) : State → Prop where
  | start (firmware : List Byte) (s : State) : construct c firmware = .next s → Reachable c s
  | more (s t : State) : Reachable c s → stepAt c s = .next t → Reachable c t

/-- The byte at an address, as claims read it. -/
abbrev State.byteAt (s : State) (addr : Nat) : Byte := s.mem.read addr

/-- Every general register but those named holds what it held. -/
def regsKept (but : List Reg8) (s t : State) : Prop := ∀ r, r ∉ but → t.reg r = s.reg r

/-- Every byte of Memory but those at the addresses named holds what it held. -/
def bytesKept (but : List Nat) (s t : State) : Prop := ∀ addr, addr ∉ but → t.byteAt addr = s.byteAt addr

/-- PC advanced by an instruction's length, mod 65536 (10_state R30, R31). -/
def pcPast (len : Nat) (s t : State) : Prop := t.pc.toNat = (s.pc.toNat + len) % 65536

/-- F, SP and RUN hold what they held. -/
def controlKept (s t : State) : Prop := t.f = s.f ∧ t.sp = s.sp ∧ t.run = s.run

/-- A load of one byte into a register: that register and PC change, nothing else (43_load R159). -/
def loaded (r : Reg8) (v : Byte) (len : Nat) (s t : State) : Prop :=
  t.reg r = v ∧ regsKept [r] s t ∧ bytesKept [] s t ∧ controlKept s t ∧ pcPast len s t

/-- A store of one byte: that byte and PC change, nothing else (43_load R159). -/
def stored (addr : Nat) (v : Byte) (len : Nat) (s t : State) : Prop :=
  t.byteAt addr = v ∧ bytesKept [addr] s t ∧ regsKept [] s t ∧ controlKept s t ∧ pcPast len s t

/-- Applying a form ends the run at an index fault and changes nothing but RUN (60_exceptions R194, R198). -/
def faultsAt (c : Config) (f : Form) (addr : Int) (s : State) : Prop :=
  execAt c f.instr s = .next { s with run := .faulted addr }

/-- The forms that store to Memory (20_memory R59). -/
def storesForm : Form → Bool
  | .ldAtHlR _ | .ldAtBcA | .ldAtDeA | .ldAtHlIncA | .ldAtHlDecA | .ldhAtNA _ | .ldAtCA | .ldAtNnA _ => true
  | .push _ | .call _ => true
  | .incR _ | .decR _ | .incRr _ | .xorR _ | .cpN _ | .bitBR _ _ | .rla | .rlR _ | .ldRR _ _ | .ldRN _ _ => false
  | .ldRrNn _ _ | .ldRAtHl _ | .ldAAtBc | .ldAAtDe | .ldAAtHlInc | .ldAAtHlDec | .ldhAAtN _ | .ldAAtC => false
  | .ldAAtNn _ | .pop _ | .ret | .jrCc _ _ | .jr _ | .jp _ => false

/-- The forms that write F (10_state R28's table). -/
def writesFlags : Form → Bool
  | .incR _ | .decR _ | .xorR _ | .cpN _ | .bitBR _ _ | .rla | .rlR _ | .pop .af => true
  | .incRr _ | .ldRR _ _ | .ldRN _ _ | .ldRrNn _ _ | .ldRAtHl _ | .ldAtHlR _ | .ldAAtBc | .ldAAtDe => false
  | .ldAtBcA | .ldAtDeA | .ldAtHlIncA | .ldAAtHlInc | .ldAtHlDecA | .ldAAtHlDec | .ldhAtNA _ | .ldhAAtN _ => false
  | .ldAtCA | .ldAAtC | .ldAtNnA _ | .ldAAtNn _ | .push _ | .pop .bc | .pop .de | .pop .hl | .call _ | .ret => false
  | .jrCc _ _ | .jr _ | .jp _ => false

/-- The forms that write SP (10_state R22's row of SP). -/
def writesSp : Form → Bool
  | .push _ | .pop _ | .call _ | .ret | .incRr .sp | .ldRrNn .sp _ => true
  | .incRr .bc | .incRr .de | .incRr .hl | .ldRrNn .bc _ | .ldRrNn .de _ | .ldRrNn .hl _ => false
  | .incR _ | .decR _ | .xorR _ | .cpN _ | .bitBR _ _ | .rla | .rlR _ | .ldRR _ _ | .ldRN _ _ => false
  | .ldRAtHl _ | .ldAtHlR _ | .ldAAtBc | .ldAAtDe | .ldAtBcA | .ldAtDeA | .ldAtHlIncA | .ldAAtHlInc => false
  | .ldAtHlDecA | .ldAAtHlDec | .ldhAtNA _ | .ldhAAtN _ | .ldAtCA | .ldAAtC | .ldAtNnA _ | .ldAAtNn _ => false
  | .jrCc _ _ | .jr _ | .jp _ => false

end Sys2Proof.Machine
end

