-- ==== Sys2Proof/Certificates/Slice0/Obligations.lean ====
section
/-! DEFINITION. The statements for the provers, from the numbered rules of spec/. `f.instr` is the instruction, the row
of the opcode table, that the form `f` selects: `(Form.incR r).instr` for the seven registers r is the seven rows of
`INC r`. A docstring says which clauses rest on a decision the spec marks as its own (log entry). -/

open Sys2Proof Sys2Proof.Machine

/-! ## Encoding (30_encoding.md; the numerals are from general knowledge, log entry 3; imm16 order, log entry 5) -/

/-- Decoding the bytes of any instruction, whatever follows them, gives it back with every operand (R82 to R87). -/
def Obligations.DecodeOfEncode : Prop :=
  ∀ (i : Instr) (rest : List Byte), decode (encode i ++ rest) = .instr i rest

/-- Bytes that decode to an instruction are that instruction's own bytes, with the rest returned: no second encoding, no
bit ignored (R88, R94). -/
def Obligations.EncodeOfDecode : Prop :=
  ∀ (bytes : List Byte) (i : Instr) (rest : List Byte), decode bytes = .instr i rest → bytes = encode i ++ rest

/-- Under any modelled sets and either order of a two-byte immediate an instruction decodes from its bytes exactly if the
machine models it; otherwise the byte that decides is rejected by name. The decided sets hold all 194 (R81;
`MODELLED_PRIMARY`, `MODELLED_CB`, `IMM16_ORDER` of 00_scope R7; D3, D4, D5, log entries 3 to 5). -/
def Obligations.ModelledExactlyDecode : Prop :=
  (∀ (c : Config) (i : Instr) (rest : List Byte),
    (i.form.modelled c = true → decodeAt c (encodeAt c i ++ rest) = .instr i rest) ∧
    (i.form.modelled c = false →
      (∃ sub, encodeAt c i = [0xCB, sub] ∧ decodeAt c (encodeAt c i ++ rest) = .unimplemented sub) ∨
      (∃ op, op ≠ 0xCB ∧ (encodeAt c i).head? = some op ∧ decodeAt c (encodeAt c i ++ rest) = .unknown op))) ∧
  ∀ i : Instr, i.form.modelled Config.decided = true

/-- An opcode is unknown exactly if it is not 0xCB and no instruction begins with it, whatever bytes follow; a sub-opcode
is unimplemented exactly if no instruction is 0xCB and it (R93, R133; membership D4, log entry 4). -/
def Obligations.RejectedExactly : Prop :=
  (∀ (op : Byte) (tail : List Byte),
    decode (op :: tail) = .unknown op ↔ op ≠ 0xCB ∧ ∀ i : Instr, (encode i).head? ≠ some op) ∧
  (∀ (sub : Byte) (rest : List Byte),
    decode (0xCB :: sub :: rest) = .unimplemented sub ↔ ∀ i : Instr, encode i ≠ [0xCB, sub])

/-- 124 primary values are unknown and 193 sub-opcodes are unimplemented (R86, R87, R93; membership D4, log entry 4). -/
def Obligations.RejectionCounts : Prop :=
  ((List.range 256).filter fun k =>
    decode [BitVec.ofNat 8 k, 0, 0] = .unknown (BitVec.ofNat 8 k)).length = 124 ∧
  ((List.range 256).filter fun k =>
    decode [0xCB, BitVec.ofNat 8 k] = .unimplemented (BitVec.ofNat 8 k)).length = 193

/-- Words written out bit by bit from the encodings of R83 and R86, one of each family, decode to what they stand for. -/
def Obligations.WrittenWordsDecode : Prop :=
  decode [0b00111100] = .instr .incA [] ∧ decode [0b00001101] = .instr .decC [] ∧
  decode [0b00110011] = .instr .incSp [] ∧ decode [0b10101001] = .instr .xorC [] ∧
  decode [0b11111110, 0x2F] = .instr (.cpN 0x2F) [] ∧ decode [0b11001011, 0b01111100] = .instr .bit7H [] ∧
  decode [0b00000001, 0x34, 0x12] = .instr (.ldBcNn 0x1234) [] ∧ decode [0b01100110] = .instr .ldHAtHl [] ∧
  decode [0b11110101] = .instr .pushAf [] ∧ decode [0b00100000, 0x0A] = .instr (.jrNz 0x0A) [] ∧
  decode [0b11001101, 0x34, 0x12] = .instr (.callNn 0x1234) []

/-! ## Increment and decrement (40_inc_dec.md) -/

/-- `INC r`, all seven registers: the register, Z, N, H, PC and nothing else (R110). The clause that C is kept rests on
the spec's decision D20 (log entry 10). -/
def Obligations.IncRegResult : Prop :=
  ∀ (r : Reg8) (s : State), ∃ t, exec (Form.incR r).instr s = .next t ∧
    (t.reg r).toNat = ((s.reg r).toNat + 1) % 256 ∧
    t.flag .z = decide ((t.reg r).toNat = 0) ∧ t.flag .n = false ∧
    t.flag .h = decide ((s.reg r).toNat % 16 = 15) ∧ t.flag .c = s.flag .c ∧ t.flagsClean ∧
    regsKept [r] s t ∧ bytesKept [] s t ∧ t.sp = s.sp ∧ t.run = s.run ∧ pcPast 1 s t

/-- `DEC r`, all seven registers (R111). C kept: the spec's decision D20; H from the low nibble: its decision D21 (log
entry 10). -/
def Obligations.DecRegResult : Prop :=
  ∀ (r : Reg8) (s : State), ∃ t, exec (Form.decR r).instr s = .next t ∧
    (t.reg r).toNat = ((s.reg r).toNat + 255) % 256 ∧
    t.flag .z = decide ((t.reg r).toNat = 0) ∧ t.flag .n = true ∧
    t.flag .h = decide ((s.reg r).toNat % 16 = 0) ∧ t.flag .c = s.flag .c ∧ t.flagsClean ∧
    regsKept [r] s t ∧ bytesKept [] s t ∧ t.sp = s.sp ∧ t.run = s.run ∧ pcPast 1 s t

/-- `INC rr` for BC, DE, HL, SP: the 16-bit value and PC, no flag, no other register, no memory (R112). -/
def Obligations.IncPairResult : Prop :=
  ∀ (rr : Reg16) (s : State), ∃ t, exec (Form.incRr rr).instr s = .next t ∧
    (t.reg16 rr).toNat = ((s.reg16 rr).toNat + 1) % 65536 ∧
    regsKept rr.halves s t ∧ (rr ≠ .sp → t.sp = s.sp) ∧ t.f = s.f ∧ bytesKept [] s t ∧ t.run = s.run ∧ pcPast 1 s t

/-- `DEC` after `INC` of the same register, and `INC` after `DEC`, restore its value, and N tells the direction (R113). -/
def Obligations.IncDecInverse : Prop :=
  ∀ (r : Reg8) (s : State),
    (∃ t u, exec (Form.incR r).instr s = .next t ∧ exec (Form.decR r).instr t = .next u ∧
      u.reg r = s.reg r ∧ u.flag .n = true) ∧
    (∃ t u, exec (Form.decR r).instr s = .next t ∧ exec (Form.incR r).instr t = .next u ∧
      u.reg r = s.reg r ∧ u.flag .n = false)

/-! ## Exclusive or and compare (41_xor_cp.md) -/

/-- `XOR r`, all seven registers: A, the four flags, PC and nothing else; `XOR A` gives A = 0x00 and F = 0x80 (R120; the
place of Z in F is the spec's decision D2, log entry 2). -/
def Obligations.XorRegResult : Prop :=
  ∀ (r : Reg8) (s : State), ∃ t, exec (Form.xorR r).instr s = .next t ∧
    t.a = s.a ^^^ s.reg r ∧ t.flag .z = decide (s.a = s.reg r) ∧
    t.flag .n = false ∧ t.flag .h = false ∧ t.flag .c = false ∧ t.flagsClean ∧ (r = .a → t.a = 0 ∧ t.f = 0x80) ∧
    regsKept [.a] s t ∧ bytesKept [] s t ∧ t.sp = s.sp ∧ t.run = s.run ∧ pcPast 1 s t

/-- `CP n`: Z, C, H are the unsigned predicates a == n, a < n, (a mod 16) < (n mod 16), N is 1, A and everything else is
kept (R121, R122). -/
def Obligations.CpImmResult : Prop :=
  ∀ (n : Byte) (s : State), ∃ t, exec (Form.cpN n).instr s = .next t ∧
    t.flag .z = decide (s.a.toNat = n.toNat) ∧ t.flag .n = true ∧
    t.flag .h = decide (s.a.toNat % 16 < n.toNat % 16) ∧ t.flag .c = decide (s.a.toNat < n.toNat) ∧ t.flagsClean ∧
    regsKept [] s t ∧ bytesKept [] s t ∧ t.sp = s.sp ∧ t.run = s.run ∧ pcPast 2 s t

/-! ## Bit test and rotate (42_bit_rotate.md) -/

/-- `BIT b,r`, all eight bits and seven registers: Z is the complement of the bit, N = 0, H = 1, C kept, no register or
memory changed (R130). -/
def Obligations.BitTestResult : Prop :=
  ∀ (b : Fin 8) (r : Reg8) (s : State), ∃ t, exec (Form.bitBR b r).instr s = .next t ∧
    t.flag .z = decide ((s.reg r).toNat / 2 ^ b.val % 2 = 0) ∧ t.flag .n = false ∧ t.flag .h = true ∧
    t.flag .c = s.flag .c ∧ t.flagsClean ∧
    regsKept [] s t ∧ bytesKept [] s t ∧ t.sp = s.sp ∧ t.run = s.run ∧ pcPast 2 s t

/-- `RL r`, all seven registers: new bit 0 is the old carry, new carry is old bit 7, Z from the result, N = H = 0
(R132). -/
def Obligations.RotateRegResult : Prop :=
  ∀ (r : Reg8) (s : State), ∃ t, exec (Form.rlR r).instr s = .next t ∧
    (t.reg r).toNat = (2 * (s.reg r).toNat + (s.flag .c).toNat) % 256 ∧
    t.flag .z = decide ((t.reg r).toNat = 0) ∧ t.flag .n = false ∧ t.flag .h = false ∧
    t.flag .c = decide (128 ≤ (s.reg r).toNat) ∧ t.flagsClean ∧
    regsKept [r] s t ∧ bytesKept [] s t ∧ t.sp = s.sp ∧ t.run = s.run ∧ pcPast 2 s t

/-- `RLA` is `RL A` but for the length: the same A, F and everything else, PC one less (R131, R132; Z from the result is
the document's row, which the spec follows by its decision D16, log entry 16). -/
def Obligations.RlaIsRotateA : Prop :=
  ∀ s : State, ∃ t u, exec Form.rla.instr s = .next t ∧ exec (Form.rlR .a).instr s = .next u ∧
    t = { u with pc := t.pc } ∧ pcPast 1 s t ∧
    t.a.toNat = (2 * s.a.toNat + (s.flag .c).toNat) % 256 ∧ t.flag .c = decide (128 ≤ s.a.toNat) ∧
    t.flag .z = decide (t.a = 0) ∧ regsKept [.a] s t ∧ bytesKept [] s t ∧ t.sp = s.sp ∧ t.run = s.run

/-- Nine successive `RLA` restore A and the carry: a 9-bit rotation (R131). -/
def Obligations.NineRlaRestore : Prop :=
  ∀ s : State, ∃ t,
    Host.Core.run { State := State, Fault := Fault, Refusal := Refusal, step := exec Form.rla.instr, reset := s } 9 s
      = .next t ∧
    t.a = s.a ∧ t.flag .c = s.flag .c ∧ regsKept [] s t ∧ pcPast 9 s t

/-! ## Loads and stores (43_load.md). That no 16-bit or zero-page address faults rests on `MEM_SIZE` = 65536, the spec's
decision D1 (log entry 1). -/

/-- `LD r,r'` for the 49 pairs of registers, and `LD r,n` for the seven registers and every byte (R140, R141, R159). -/
def Obligations.LoadRegResult : Prop :=
  (∀ (dst src : Reg8) (s : State), ∃ t, exec (Form.ldRR dst src).instr s = .next t ∧
    loaded dst (s.reg src) 1 s t) ∧
  (∀ (r : Reg8) (n : Byte) (s : State), ∃ t, exec (Form.ldRN r n).instr s = .next t ∧ loaded r n 2 s t)

/-- `LD rr,nn` for BC, DE, HL, SP: the 16-bit value and PC, nothing else (R142). -/
def Obligations.LoadPairResult : Prop :=
  ∀ (rr : Reg16) (nn : Word) (s : State), ∃ t, exec (Form.ldRrNn rr nn).instr s = .next t ∧
    t.reg16 rr = nn ∧ regsKept rr.halves s t ∧ (rr ≠ .sp → t.sp = s.sp) ∧ t.f = s.f ∧ bytesKept [] s t ∧
    t.run = s.run ∧ pcPast 3 s t

/-- `LD r,(HL)`, r = H and L included: the byte at the old HL (R143). -/
def Obligations.LoadAtHlResult : Prop :=
  ∀ (r : Reg8) (s : State), ∃ t, exec (Form.ldRAtHl r).instr s = .next t ∧
    loaded r (s.byteAt (256 * s.h.toNat + s.l.toNat)) 1 s t

/-- `LD A,(BC)`, `LD A,(DE)`, `LD A,(nn)`, `LDH A,(n)`, `LD A,(C)`: A is the byte at the address (R145, R146, R154, R156,
R158). -/
def Obligations.LoadAResult : Prop :=
  ∀ (s : State) (n : Byte) (nn : Word),
    (∃ t, exec Form.ldAAtBc.instr s = .next t ∧ loaded .a (s.byteAt (256 * s.b.toNat + s.c.toNat)) 1 s t) ∧
    (∃ t, exec Form.ldAAtDe.instr s = .next t ∧ loaded .a (s.byteAt (256 * s.d.toNat + s.e.toNat)) 1 s t) ∧
    (∃ t, exec (Form.ldAAtNn nn).instr s = .next t ∧ loaded .a (s.byteAt nn.toNat) 3 s t) ∧
    (∃ t, exec (Form.ldhAAtN n).instr s = .next t ∧ loaded .a (s.byteAt (0xFF00 + n.toNat)) 2 s t) ∧
    (∃ t, exec Form.ldAAtC.instr s = .next t ∧ loaded .a (s.byteAt (0xFF00 + s.c.toNat)) 1 s t)

/-- `LD (HL),r`, r = H and L included (R144): the one byte stored to, at the address the meaning computes. The premise is
the canonical form of Memory, an invariant (`StepKeepsInv`). -/
def Obligations.StoreAtHlResult : Prop :=
  ∀ (r : Reg8) (s : State), s.mem.wf → ∃ t, exec (Form.ldAtHlR r).instr s = .next t ∧
    stored (wordAddr (s.pair .hl)).toNat (s.reg r) 1 s t

/-- `LD (BC),A`, `LD (DE),A`, `LD (nn),A`, `LDH (n),A`, `LD (C),A`: the one byte stored to, at the address the meaning
computes (R147, R148, R153, R155, R157). -/
def Obligations.StoreAResult : Prop :=
  ∀ (s : State) (n : Byte) (nn : Word), s.mem.wf →
    (∃ t, exec Form.ldAtBcA.instr s = .next t ∧ stored (wordAddr (s.pair .bc)).toNat s.a 1 s t) ∧
    (∃ t, exec Form.ldAtDeA.instr s = .next t ∧ stored (wordAddr (s.pair .de)).toNat s.a 1 s t) ∧
    (∃ t, exec (Form.ldAtNnA nn).instr s = .next t ∧ stored (wordAddr nn).toNat s.a 3 s t) ∧
    (∃ t, exec (Form.ldhAtNA n).instr s = .next t ∧ stored (zeroPageAddr n).toNat s.a 2 s t) ∧
    (∃ t, exec Form.ldAtCA.instr s = .next t ∧ stored (zeroPageAddr s.c).toNat s.a 1 s t)

/-- `LD A,(HL+)` and `LD A,(HL-)`: A is the byte at the old HL, then HL changes by one mod 65536 (R150, R152). That the
old HL is used is the spec's decision D11 (log entry 9). -/
def Obligations.LoadHlStepResult : Prop :=
  ∀ s : State,
    (∃ t, exec Form.ldAAtHlInc.instr s = .next t ∧
      t.a = s.byteAt (256 * s.h.toNat + s.l.toNat) ∧ (t.pair .hl).toNat = ((s.pair .hl).toNat + 1) % 65536 ∧
      regsKept [.a, .h, .l] s t ∧ bytesKept [] s t ∧ controlKept s t ∧ pcPast 1 s t) ∧
    (∃ t, exec Form.ldAAtHlDec.instr s = .next t ∧
      t.a = s.byteAt (256 * s.h.toNat + s.l.toNat) ∧ (t.pair .hl).toNat = ((s.pair .hl).toNat + 65535) % 65536 ∧
      regsKept [.a, .h, .l] s t ∧ bytesKept [] s t ∧ controlKept s t ∧ pcPast 1 s t)

/-- `LD (HL+),A` and `LD (HL-),A`: A goes to the byte at the old HL, then HL changes by one mod 65536 (R149, R151). That
the old HL is used is the spec's decision D11 (log entry 9). -/
def Obligations.StoreHlStepResult : Prop :=
  ∀ s : State, s.mem.wf →
    (∃ t, exec Form.ldAtHlIncA.instr s = .next t ∧
      t.byteAt (wordAddr (s.pair .hl)).toNat = s.a ∧ bytesKept [(wordAddr (s.pair .hl)).toNat] s t ∧
      (t.pair .hl).toNat = ((s.pair .hl).toNat + 1) % 65536 ∧
      regsKept [.h, .l] s t ∧ controlKept s t ∧ pcPast 1 s t) ∧
    (∃ t, exec Form.ldAtHlDecA.instr s = .next t ∧
      t.byteAt (wordAddr (s.pair .hl)).toNat = s.a ∧ bytesKept [(wordAddr (s.pair .hl)).toNat] s t ∧
      (t.pair .hl).toNat = ((s.pair .hl).toNat + 65535) % 65536 ∧
      regsKept [.h, .l] s t ∧ controlKept s t ∧ pcPast 1 s t)

/-! ## The stack (44_stack.md). Where a stack form completes rests on `MEM_SIZE` = 65536 and on addresses that are not
wrapped, the spec's decisions D1 and D8 (log entries 1 and 8). -/

/-- `PUSH rr` for BC, DE, HL, AF where SP is not 0: the low register at SP - 1, the high one at SP, SP less 2 mod 65536
(R170, R172; where: D1, D8, log entries 1 and 8). -/
def Obligations.PushResult : Prop :=
  ∀ (p : Pair) (s : State), s.mem.wf → s.sp ≠ 0 → ∃ t, exec (Form.push p).instr s = .next t ∧
    t.byteAt (pushAddr s).toNat = (s.pair p).low ∧ t.byteAt s.sp.toNat = (s.pair p).high ∧
    t.sp.toNat = (s.sp.toNat + 65534) % 65536 ∧ bytesKept [(pushAddr s).toNat, s.sp.toNat] s t ∧
    regsKept [] s t ∧ t.f = s.f ∧ t.run = s.run ∧ pcPast 1 s t

/-- `POP rr` for BC, DE, HL, AF where SP + 2 is an address: the word at SP + 1 and SP + 2; F is written only by `POP AF`,
its low nibble dropped (R171, R173; where: D1, D8, log entries 1 and 8). -/
def Obligations.PopResult : Prop :=
  ∀ (p : Pair) (s : State), s.sp.toNat < 65534 → ∃ t, exec (Form.pop p).instr s = .next t ∧
    (p ≠ .af → t.pair p = Word.ofBytes (s.byteAt (s.sp.toNat + 2)) (s.byteAt (s.sp.toNat + 1)) ∧ t.f = s.f) ∧
    (p = .af → t.a = s.byteAt (s.sp.toNat + 2) ∧ t.f = s.byteAt (s.sp.toNat + 1) &&& 0xF0) ∧
    t.sp.toNat = s.sp.toNat + 2 ∧ regsKept p.halves s t ∧ bytesKept [] s t ∧ t.run = s.run ∧ pcPast 1 s t

/-- Where the stack forms trap at `MEM_SIZE` = 65536: a push at SP = 0 at address -1, a pop at SP = 0xFFFE or 0xFFFF at
0x10000; nothing but RUN changes (R170, R171, R194). Addresses are not wrapped and the fault is a run state by the
spec's decisions D7, D8 (log entries 7 and 8). -/
def Obligations.StackTraps : Prop :=
  ∀ (p : Pair) (nn : Word) (s : State),
    (s.sp = 0 → exec (Form.push p).instr s = .next { s with run := .faulted (-1) } ∧
      exec (Form.call nn).instr s = .next { s with run := .faulted (-1) }) ∧
    (65534 ≤ s.sp.toNat → exec (Form.pop p).instr s = .next { s with run := .faulted 0x10000 } ∧
      exec Form.ret.instr s = .next { s with run := .faulted 0x10000 })

/-- A push followed by a pop returns the pushed word and restores SP, and a pop followed by a push of the popped word
restores every byte and SP, under either memory size (R174). The push starts at SP ≥ 2: R174 says SP ≥ 1, but at SP = 1
R170 leaves SP = 0xFFFF, where R171 makes the pop fault (`PushThenPopAtOne`; log entry 15). -/
def Obligations.PushPopInverse : Prop :=
  ∀ (c : Config) (s : State), c.memSize ≤ 65536 → s.mem.wf →
    (∀ v : Word, 2 ≤ s.sp.toNat → s.sp.toNat < c.memSize →
      ∃ t u, push c v s = .ok t ∧ pop c t = .ok (v, u) ∧ u.sp = s.sp) ∧
    (∀ (w : Word) (t : State), pop c s = .ok (w, t) → ∃ u, push c w t = .ok u ∧ u.sp = s.sp ∧ bytesKept [] s u)

/-- At SP = 1 a push succeeds at addresses 0 and 1 and leaves SP = 0xFFFF, and the pop after it faults at 0x10000 (R170,
R171; log entry 15). -/
def Obligations.PushThenPopAtOne : Prop :=
  ∀ (v : Word) (s : State), s.sp = 1 →
    ∃ t, push Config.decided v s = .ok t ∧ t.sp = 0xFFFF ∧ pop Config.decided t = .error 0x10000

/-! ## Control transfer (45_control.md) -/

/-- `CALL nn` where SP is not 0: the address of the next instruction is pushed, little-endian, and PC is nn (R180; where: D8,
log entry 8). -/
def Obligations.CallResult : Prop :=
  ∀ (nn : Word) (s : State), s.mem.wf → s.sp ≠ 0 → ∃ t, exec (Form.call nn).instr s = .next t ∧
    t.pc = nn ∧
    256 * (t.byteAt s.sp.toNat).toNat + (t.byteAt (pushAddr s).toNat).toNat = (s.pc.toNat + 3) % 65536 ∧
    t.sp.toNat = (s.sp.toNat + 65534) % 65536 ∧ bytesKept [(pushAddr s).toNat, s.sp.toNat] s t ∧
    regsKept [] s t ∧ t.f = s.f ∧ t.run = s.run

/-- `RET` where SP + 2 is an address: PC is the word at SP + 1 and SP + 2 (R181; where: D1, D8, log entries 1 and
8). -/
def Obligations.RetResult : Prop :=
  ∀ s : State, s.sp.toNat < 65534 → ∃ t, exec Form.ret.instr s = .next t ∧
    t.pc.toNat = 256 * (s.byteAt (s.sp.toNat + 2)).toNat + (s.byteAt (s.sp.toNat + 1)).toNat ∧
    t.sp.toNat = s.sp.toNat + 2 ∧ regsKept [] s t ∧ bytesKept [] s t ∧ t.f = s.f ∧ t.run = s.run

/-- A call followed, at its target, by a return comes back to the instruction after the call with SP as it was, and the
registers and F are untouched (R180, R181, R174), from SP ≥ 2. -/
def Obligations.CallThenRet : Prop :=
  ∀ (nn : Word) (s : State), s.mem.wf → 2 ≤ s.sp.toNat → ∃ t u,
    exec (Form.call nn).instr s = .next t ∧ t.pc = nn ∧ exec Form.ret.instr t = .next u ∧
    pcPast 3 s u ∧ u.sp = s.sp ∧ u.f = s.f ∧ regsKept [] s u

/-- `JR cc,e` for the four conditions, `JR e` and `JP nn`: PC is the target, the displacement signed and counted from the
next instruction, and nothing else changes (R182, R183, R184). `JR e` and `JP nn` are admitted by the spec's decision
D10 (log entry 4). -/
def Obligations.JumpResult : Prop :=
  ∀ (cc : Cond) (e : Byte) (nn : Word) (s : State),
    (∃ t, exec (Form.jrCc cc e).instr s = .next t ∧ t = { s with pc := t.pc } ∧
      (s.holds cc = true → (t.pc.toNat : Int) = ((s.pc.toNat : Int) + 2 + e.toInt) % 65536) ∧
      (s.holds cc = false → pcPast 2 s t)) ∧
    (∃ t, exec (Form.jr e).instr s = .next t ∧ t = { s with pc := t.pc } ∧
      (t.pc.toNat : Int) = ((s.pc.toNat : Int) + 2 + e.toInt) % 65536) ∧
    exec (Form.jp nn).instr s = .next { s with pc := nn }

/-- The four conditions, that none reads N or H, and that no other form's PC depends on a flag (R185). -/
def Obligations.ConditionsReadZAndC : Prop :=
  (∀ s : State, (s.holds .nz = true ↔ s.flag .z = false) ∧ (s.holds .z = true ↔ s.flag .z = true) ∧
    (s.holds .nc = true ↔ s.flag .c = false) ∧ (s.holds .c = true ↔ s.flag .c = true)) ∧
  (∀ (cc : Cond) (s t : State), s.flag .z = t.flag .z → s.flag .c = t.flag .c → s.holds cc = t.holds cc) ∧
  (∀ (i : Instr) (s t u : State) (v : Byte), (∀ cc e, i.form ≠ .jrCc cc e) →
    exec i s = .next t → exec i { s with f := v } = .next u → t.pc = u.pc)

/-! ## Registers and Memory (10_state.md, 20_memory.md) -/

/-- Pair views: the first-named register is the high byte, both halves are written, and AF drops the low nibble
(R24, R25). -/
def Obligations.PairViews : Prop :=
  ∀ (s : State) (v : Word),
    (s.pair .bc).toNat = 256 * s.b.toNat + s.c.toNat ∧ (s.pair .de).toNat = 256 * s.d.toNat + s.e.toNat ∧
    (s.pair .hl).toNat = 256 * s.h.toNat + s.l.toNat ∧ (s.pair .af).toNat = 256 * s.a.toNat + s.f.toNat ∧
    s.setPair .bc v = { s with b := v.high, c := v.low } ∧ s.setPair .de v = { s with d := v.high, e := v.low } ∧
    s.setPair .hl v = { s with h := v.high, l := v.low } ∧
    s.setPair .af v = { s with a := v.high, f := v.low &&& 0xF0 } ∧
    v.high.toNat = v.toNat / 256 ∧ v.low.toNat = v.toNat % 256

/-- The invariant of F: its low nibble is zero in every state, from construction on, and every write of F by any step
masks it, from any state at all (R27). -/
def Obligations.FlagByteInvariant : Prop :=
  State.reset.flagsClean ∧ (∀ s t, s.flagsClean → step s = .next t → t.flagsClean) ∧
  (∀ s t, step s = .next t → t.f = s.f ∨ t.flagsClean)

/-- `MemRead(addr, 1)` under any memory size: the byte, or `IndexFault(addr)` outside 0 to `MEM_SIZE` - 1 (R52). -/
def Obligations.MemReadRule : Prop :=
  ∀ (c : Config) (s : State) (addr : Int),
    ((addr < 0 ∨ (c.memSize : Int) ≤ addr) → memRead c s addr = .error addr) ∧
    (∀ k : Nat, addr = k → k < c.memSize → memRead c s addr = .ok (s.byteAt k))

/-- `MemWrite(addr, 1, v)` under any memory size: that byte and no other, or `IndexFault(addr)` (R53). -/
def Obligations.MemWriteRule : Prop :=
  ∀ (c : Config) (s : State) (addr : Int) (v : Byte), s.mem.wf →
    ((addr < 0 ∨ (c.memSize : Int) ≤ addr) → memWrite c s addr v = .error addr) ∧
    (∀ k : Nat, addr = k → k < c.memSize →
      ∃ m, memWrite c s addr v = .ok { s with mem := m } ∧ m.read k = v ∧ ∀ q, q ≠ k → m.read q = s.byteAt q)

/-- Two-byte accesses: little-endian, both addresses checked before anything is written, the lowest out-of-range address
reported (20_memory R58). That the lowest is the one reported is the spec's decision D18 (log entry 8). -/
def Obligations.TwoByteAccessRule : Prop :=
  ∀ (c : Config) (s : State) (addr : Int) (w : Word), s.mem.wf →
    (¬ inRange c addr → memRead16 c s addr = .error addr ∧ memWrite16 c s addr w = .error addr) ∧
    (inRange c addr → ¬ inRange c (addr + 1) →
      memRead16 c s addr = .error (addr + 1) ∧ memWrite16 c s addr w = .error (addr + 1)) ∧
    (∀ k : Nat, addr = k → k + 1 < c.memSize →
      memRead16 c s addr = .ok (Word.ofBytes (s.byteAt (k + 1)) (s.byteAt k)) ∧
      ∃ m, memWrite16 c s addr w = .ok { s with mem := m } ∧ m.read k = w.low ∧ m.read (k + 1) = w.high ∧
        ∀ q, q ≠ k → q ≠ k + 1 → m.read q = s.byteAt q)

/-- PC after any instruction: one that raises keeps it; otherwise the target of a jump, call or return, and for every
other form the number of the instruction's bytes added mod 65536 (R30). -/
def Obligations.PcRule : Prop :=
  ∀ (i : Instr) (s t : State), s.run = .fetching → exec i s = .next t →
    (t.run ≠ .fetching → t.pc = s.pc) ∧
    (t.run = .fetching →
      match i.form with
      | .jrCc cc e => t.pc = if s.holds cc = true then s.pc + 2 + sext16 e else s.pc + 2
      | .jr e => t.pc = s.pc + 2 + sext16 e
      | .jp nn => t.pc = nn
      | .call nn => t.pc = nn
      | .ret => t.pc = Word.ofBytes (s.byteAt (s.sp.toNat + 2)) (s.byteAt (s.sp.toNat + 1))
      | _ => pcPast (encode i).length s t)

/-- Who writes what, over all instructions: only the storing forms change a byte of Memory (R59), only the forms of R28's
table change F, only the forms of R22's row of SP change SP. -/
def Obligations.OnlyTheseWrite : Prop :=
  ∀ (i : Instr) (s t : State), exec i s = .next t →
    (storesForm i.form = false → bytesKept [] s t) ∧
    (writesFlags i.form = false → t.f = s.f) ∧
    (writesSp i.form = false → t.sp = s.sp)

/-- N and H are read by no instruction but `PUSH AF`: changing them changes nothing else, and an instruction that writes
F and completes leaves the same F (10_state R28). -/
def Obligations.OnlyPushAfReadsNAndH : Prop :=
  ∀ (i : Instr) (s t : State) (v : Byte), i.form ≠ .push .af →
    ({ s with f := v } : State).flag .z = s.flag .z → ({ s with f := v } : State).flag .c = s.flag .c →
    exec i s = .next t →
    ∃ u, exec i { s with f := v } = .next u ∧ u = { t with f := u.f } ∧
      (writesFlags i.form = false → u.f = v) ∧
      (writesFlags i.form = true → s.run = .fetching → t.run = .fetching → u.f = t.f)

/-- `FLAG_POS` shows only where F is read as a byte: with the flags at other places of the high nibble every instruction but
`PUSH AF` and `POP AF` does the same to everything but F, and to each flag (00_scope R7, R28; the spec's decision D2, log
entry 2). -/
def Obligations.FlagPositionsHidden : Prop :=
  ∀ (c : Config) (p : FlagPos), c.flagPos.wellFormed = true → p.wellFormed = true →
    ∀ (i : Instr) (s t : State) (v : Byte), i.form ≠ .push .af → i.form ≠ .pop .af →
      (∀ x, ({ s with f := v } : State).flagAt p x = s.flagAt c.flagPos x) → execAt c i s = .next t →
      ∃ u, execAt { c with flagPos := p } i { s with f := v } = .next u ∧ u = { t with f := u.f } ∧
        ∀ x, u.flagAt p x = t.flagAt c.flagPos x

/-! ## The step, the run states, reset (60_exceptions.md, 70_reset_and_hazards.md) -/

/-- When the bytes at PC decode to an instruction, the step is that instruction's `exec`: nothing is added around it
(00_scope R11, the spec's decision D12, log entry 8; every instruction is well-formed, 30_encoding R94). -/
def Obligations.StepRunsDecoded : Prop :=
  ∀ (s : State) (i : Instr) (rest : List Byte), s.run = .fetching →
    decode (fetchBytes Config.decided s) = .instr i rest → i.wellFormed = true ∧ step s = exec i s

/-- When Memory holds an instruction's bytes at PC, within Memory, the step is that instruction's `exec` (R81, R85,
R191; the numerals, the order of a two-byte immediate and the size are D3, D5, D1, log entries 3, 5, 1). -/
def Obligations.StepRunsMemory : Prop :=
  ∀ (s : State) (i : Instr), s.run = .fetching → s.pc.toNat + (encode i).length ≤ 65536 →
    (∀ k, k < (encode i).length → (encode i)[k]? = some (s.byteAt (s.pc.toNat + k))) → step s = exec i s

/-- The decode events: an opcode no instruction begins with, a sub-opcode behind 0xCB that no instruction has, and
operand bytes beyond Memory each change RUN alone, with their records (R81, R192, R194, R195, R196). Membership,
the record of UnimplementedOpcode, the run state Faulted, the unwrapped address and the size are the spec's decisions
D4, D14, D7, D8, D1 (log entries 4, 7, 8, 1). -/
def Obligations.DecodeEvents : Prop :=
  ∀ s : State, s.run = .fetching →
    ((s.byteAt s.pc.toNat ≠ 0xCB ∧ ∀ i : Instr, (encode i).head? ≠ some (s.byteAt s.pc.toNat)) →
      step s = .next { s with run := .unknownOpcode (s.byteAt s.pc.toNat) s.pc }) ∧
    ((s.byteAt s.pc.toNat = 0xCB ∧ s.pc.toNat + 1 < 65536 ∧
        ∀ i : Instr, encode i ≠ [0xCB, s.byteAt (s.pc.toNat + 1)]) →
      step s = .next { s with run := .unimplementedOpcode (s.byteAt (s.pc.toNat + 1)) s.pc }) ∧
    (∀ i : Instr, (encode i).head? = some (s.byteAt s.pc.toNat) → 65536 < s.pc.toNat + (encode i).length →
      step s = .next { s with run := .faulted 0x10000 })

/-- Terminal run states absorb every later step, under any configuration (R197). -/
def Obligations.TerminalAbsorbs : Prop :=
  ∀ (c : Config) (s : State), s.run ≠ .fetching → stepAt c s = .next s ∧ step s = .next s

/-- From every state a step is possible, and it is a function of the state; from a Fetching state it either applies one
instruction, fetched at PC, or enters a terminal state with everything else kept; an endless loop is possible (R231). That
every event, an index fault too, is a next state is the spec's decision D7 and the model's reading of the run states
(log entry 7); that a terminal state's step answers that state again is 60_exceptions R197. -/
def Obligations.StepAlwaysAnswers : Prop :=
  (∀ s : State, ∃ t, step s = .next t) ∧
  (∀ s : State, s.run = .fetching →
    (∃ i t, fetch Config.decided s = .instr i ∧ step s = exec i s ∧ exec i s = .next t) ∨
    (∃ r, r ≠ .fetching ∧ step s = .next { s with run := r })) ∧
  (∃ s : State, s.run = .fetching ∧ step s = .next s)

/-- Whatever ends a run changes RUN and nothing else: registers, F, SP, PC and Memory are those after the last completed
instruction (R198, R17). For an index fault this is the spec's decision D7 (log entry 7). -/
def Obligations.EventsChangeRunOnly : Prop :=
  ∀ (c : Config) (s t : State), s.run = .fetching → stepAt c s = .next t → t.run ≠ .fetching →
    t = { s with run := t.run }

/-- At `MEM_SIZE` = 65536 an instruction faults only on the stack: a push or call at SP = 0 at -1, a pop or return at SP =
0xFFFE or 0xFFFF at 0x10000, and a step's index fault is at one of these two addresses (R194; D1, D7, D8, log
entries 1, 7 and 8). -/
def Obligations.OnlyStackFaults : Prop :=
  (∀ (i : Instr) (s t : State), s.run = .fetching → exec i s = .next t → t.run ≠ .fetching →
    (t.run = .faulted (-1) ∧ s.sp = 0 ∧ ((∃ p, i.form = .push p) ∨ ∃ nn, i.form = .call nn)) ∨
    (t.run = .faulted 0x10000 ∧ 65534 ≤ s.sp.toNat ∧ ((∃ p, i.form = .pop p) ∨ i.form = .ret))) ∧
  (∀ (s t : State) (addr : Int), s.run = .fetching → step s = .next t → t.run = .faulted addr →
    addr = -1 ∨ addr = 0x10000)

/-- `Halted` is unreachable at `MEM_SIZE` = 65536; at 65535 it is entered exactly from PC = 0xFFFF (R193; D1, log
entry 1). -/
def Obligations.HaltedOnlyWhenSmall : Prop :=
  (∀ s t : State, s.run ≠ .halted → step s = .next t → t.run ≠ .halted) ∧
  (∀ s t : State, s.run = .fetching → stepAt Config.small s = .next t → (t.run = .halted ↔ s.pc = 0xFFFF))

/-- At `MEM_SIZE` = 65535 every access to 0xFFFF faults there, whichever form makes it: data accesses through HL, BC, DE, the
zero page and `nn`, pushes and calls at SP = 0xFFFF, pops and returns whose lowest address beyond Memory it is, and the
fetch of an operand or sub-opcode byte. At SP = 0xFFFF a pop's lowest such address is 0x10000, and at SP = 0 a push's is -1
(R194). Faulted is the spec's decision D7, the size D1, the lowest address D18 (log entries 7, 1 and 8). -/
def Obligations.SmallMemoryFaults : Prop :=
  ∀ (s : State) (r : Reg8) (p : Pair) (nn : Word),
    (s.pair .hl = 0xFFFF →
      ∀ f ∈ [Form.ldRAtHl r, .ldAtHlR r, .ldAtHlIncA, .ldAAtHlInc, .ldAtHlDecA, .ldAAtHlDec],
        faultsAt Config.small f 0xFFFF s) ∧
    (s.pair .bc = 0xFFFF → ∀ f ∈ [Form.ldAAtBc, .ldAtBcA], faultsAt Config.small f 0xFFFF s) ∧
    (s.pair .de = 0xFFFF → ∀ f ∈ [Form.ldAAtDe, .ldAtDeA], faultsAt Config.small f 0xFFFF s) ∧
    (s.c = 0xFF → ∀ f ∈ [Form.ldAtCA, .ldAAtC], faultsAt Config.small f 0xFFFF s) ∧
    (∀ f ∈ [Form.ldhAtNA 0xFF, .ldhAAtN 0xFF, .ldAtNnA 0xFFFF, .ldAAtNn 0xFFFF], faultsAt Config.small f 0xFFFF s) ∧
    (s.sp = 0xFFFF → ∀ f ∈ [Form.push p, .call nn], faultsAt Config.small f 0xFFFF s) ∧
    (s.sp = 0 → ∀ f ∈ [Form.push p, .call nn], faultsAt Config.small f (-1) s) ∧
    (s.sp = 0xFFFD ∨ s.sp = 0xFFFE → ∀ f ∈ [Form.pop p, .ret], faultsAt Config.small f 0xFFFF s) ∧
    (s.sp = 0xFFFF → ∀ f ∈ [Form.pop p, .ret], faultsAt Config.small f 0x10000 s) ∧
    (∀ i : Instr, s.run = .fetching → s.pc.toNat < 65535 → (encode i).head? = some (s.byteAt s.pc.toNat) →
      65535 < s.pc.toNat + (encode i).length →
      stepAt Config.small s = .next { s with run := .faulted 0xFFFF })

/-- The invariant that every step keeps: F's low nibble is zero, Memory is in canonical form and lists only addresses
that exist (R27; 20_memory R50, R53). -/
def Obligations.StepKeepsInv : Prop :=
  ∀ s t : State, s.Inv Config.decided → step s = .next t → t.Inv Config.decided

/-- The invariant holds in every reachable state of a machine of either memory size, constructed from any image that
fits (R27, R50, R210, R221). -/
def Obligations.ReachableInv : Prop :=
  ∀ (c : Config) (s : State), c.wellFormed = true → Reachable c s → s.Inv c

/-- The invariant holds at reset. -/
def Obligations.ResetInv : Prop := State.reset.Inv Config.decided

/-- Construction: an image that fits is laid out from address 0, zeros beyond it, RUN Fetching and every register, F, SP and
PC that of the configuration; a longer one is refused (R222, R51; refusal: the spec's decision D15, log entry 11). -/
def Obligations.ConstructLoadsImage : Prop :=
  ∀ (c : Config) (image : List Byte),
    (image.length ≤ c.memSize → ∃ t, construct c image = .next t ∧ t.run = .fetching ∧ t.pc = c.resetRegs.pc ∧
      t.sp = c.resetRegs.sp ∧ t.f = c.resetRegs.f ∧ t.a = c.resetRegs.a ∧ t.b = c.resetRegs.b ∧ t.c = c.resetRegs.c ∧
      t.d = c.resetRegs.d ∧ t.e = c.resetRegs.e ∧ t.h = c.resetRegs.h ∧ t.l = c.resetRegs.l ∧
      (∀ k, k < image.length → some (t.byteAt k) = image[k]?) ∧ (∀ k, image.length ≤ k → t.byteAt k = 0)) ∧
    (c.memSize < image.length → construct c image = .refused (.imageTooLong image.length))

/-- Reset is construction from the empty image: all registers zero (the spec's decision D6, log entry 6), RUN Fetching,
every byte zero; the first step ends in UnknownOpcode(0x00, 0x0000) (R36, R224). -/
def Obligations.ResetState : Prop :=
  construct Config.decided [] = .next State.reset ∧
  (∀ r, State.reset.reg r = 0) ∧ State.reset.f = 0 ∧ State.reset.sp = 0 ∧ State.reset.pc = 0 ∧
  State.reset.run = .fetching ∧ (∀ addr, State.reset.byteAt addr = 0) ∧
  step State.reset = .next { State.reset with run := .unknownOpcode 0x00 0x0000 }

/-- `next()` changes RUN alone and returns the same again; what it decoded may be applied, and that is the step
(00_scope R10, R11; 70 R228; D12, log entry 8). -/
def Obligations.NextThenApplyIsStep : Prop :=
  ∀ s : State,
    (hostNext Config.decided s).1 = { s with run := (hostNext Config.decided s).1.run } ∧
    hostNext Config.decided (hostNext Config.decided s).1 = hostNext Config.decided s ∧
    (∀ i text, (hostNext Config.decided s).2 = .decoded i text →
      (hostNext Config.decided s).1 = s ∧ text = render i ∧ hostApply Config.decided exec i s = step s) ∧
    (∀ r, (hostNext Config.decided s).2 = .ended r →
      r ≠ .fetching ∧ step s = .next (hostNext Config.decided s).1 ∧ (hostNext Config.decided s).1.run = r)

/-- A store is seen by the very next fetch: after `LD (nn),A` with nn the address just past it, the next opcode byte is A
(R63). -/
def Obligations.StoreIsFetched : Prop :=
  ∀ (s : State) (nn : Word), s.mem.wf → s.run = .fetching → fetch Config.decided s = .instr (Form.ldAtNnA nn).instr →
    nn = s.pc + 3 → ∃ t, step s = .next t ∧ (fetchBytes Config.decided t).head? = some s.a

/-- `snapshot()` shows all of the state: two states with the same snapshot are the same state (R207). The premises are
the invariant of every reachable state (`ReachableInv`). -/
def Obligations.SnapshotShowsState : Prop :=
  ∀ (c : Config) (s t : State), s.Inv c → t.Inv c → snapshot c s = snapshot c t → s = t
end

