-- ==== Sys2Proof/Laws/State.lean ====
section
/-! SUPPORT. What each update of a State does to each field, so that no later proof unfolds a record update. -/

namespace Sys2Proof

/-! ## Words and their halves -/

/-- The halves of `{hi, lo}`. -/
@[simp] theorem Word.high_ofBytes (hi lo : Byte) : (Word.ofBytes hi lo).high = hi := by
  unfold Word.ofBytes Word.high
  ext i hi'
  have h8 : 8 + i < 16 := by omega
  simp [hi', h8]

@[simp] theorem Word.low_ofBytes (hi lo : Byte) : (Word.ofBytes hi lo).low = lo := by
  unfold Word.ofBytes Word.low
  ext i hi'
  have h16 : i < 16 := by omega
  simp [hi', h16]

/-- The number `{hi, lo}`. -/
theorem Word.toNat_ofBytes (hi lo : Byte) : (Word.ofBytes hi lo).toNat = 256 * hi.toNat + lo.toNat := by
  have h1 := hi.isLt
  have h2 := lo.isLt
  unfold Word.ofBytes
  rw [BitVec.toNat_or, BitVec.toNat_shiftLeft, BitVec.toNat_setWidth, BitVec.toNat_setWidth,
    Nat.mod_eq_of_lt (by omega : hi.toNat < 2 ^ 16), Nat.mod_eq_of_lt (by omega : lo.toNat < 2 ^ 16), Nat.shiftLeft_eq,
    Nat.mod_eq_of_lt (by omega), Nat.mul_comm, ← Nat.two_pow_add_eq_or_of_lt (i := 8) (by omega)]

/-- A word is made of its halves. -/
@[simp] theorem Word.ofBytes_high_low (w : Word) : Word.ofBytes w.high w.low = w := by
  unfold Word.ofBytes Word.high Word.low
  ext i hi'
  by_cases h : i < 8
  · simp [h, hi']
  · have h1 : i - 8 < 8 := by omega
    have e : 8 + (i - 8) = i := by omega
    simp [h, hi', h1, e]

end Sys2Proof

namespace Sys2Proof.Machine

/-! ## Writing one general register -/

@[simp] theorem State.setReg_f (s : State) (r : Reg8) (v : Byte) : (s.setReg r v).f = s.f := by cases r <;> rfl
@[simp] theorem State.setReg_sp (s : State) (r : Reg8) (v : Byte) : (s.setReg r v).sp = s.sp := by cases r <;> rfl
@[simp] theorem State.setReg_pc (s : State) (r : Reg8) (v : Byte) : (s.setReg r v).pc = s.pc := by cases r <;> rfl
@[simp] theorem State.setReg_run (s : State) (r : Reg8) (v : Byte) : (s.setReg r v).run = s.run := by cases r <;> rfl
@[simp] theorem State.setReg_mem (s : State) (r : Reg8) (v : Byte) : (s.setReg r v).mem = s.mem := by cases r <;> rfl

@[simp] theorem State.setReg_flagAt (s : State) (r : Reg8) (v : Byte) (p : FlagPos) (x : Flag) :
    (s.setReg r v).flagAt p x = s.flagAt p x := by
  cases r <;> rfl

/-- A register reads what was last written to it. -/
theorem State.reg_setReg (s : State) (r q : Reg8) (v : Byte) :
    (s.setReg r v).reg q = if q = r then v else s.reg q := by
  cases r <;> cases q <;> rfl

@[simp] theorem State.reg_setReg_self (s : State) (r : Reg8) (v : Byte) : (s.setReg r v).reg r = v := by
  cases r <;> rfl

theorem State.reg_setReg_of_ne (s : State) (r q : Reg8) (v : Byte) (h : q ≠ r) : (s.setReg r v).reg q = s.reg q := by
  rw [State.reg_setReg, if_neg h]

theorem State.reg_a (s : State) : s.reg .a = s.a := rfl

/-! ## Writing F -/

@[simp] theorem State.setF_f (s : State) (v : Byte) : (s.setF v).f = v &&& 0xF0 := rfl
@[simp] theorem State.setF_reg (s : State) (v : Byte) (q : Reg8) : (s.setF v).reg q = s.reg q := by cases q <;> rfl
@[simp] theorem State.setF_sp (s : State) (v : Byte) : (s.setF v).sp = s.sp := rfl
@[simp] theorem State.setF_pc (s : State) (v : Byte) : (s.setF v).pc = s.pc := rfl
@[simp] theorem State.setF_run (s : State) (v : Byte) : (s.setF v).run = s.run := rfl
@[simp] theorem State.setF_mem (s : State) (v : Byte) : (s.setF v).mem = s.mem := rfl

@[simp] theorem State.setFlags_reg (s : State) (p : FlagPos) (z n h c : Bool) (q : Reg8) : (s.setFlags p z n h c).reg q = s.reg q := by
  cases q <;> rfl
@[simp] theorem State.setFlags_sp (s : State) (p : FlagPos) (z n h c : Bool) : (s.setFlags p z n h c).sp = s.sp := rfl
@[simp] theorem State.setFlags_pc (s : State) (p : FlagPos) (z n h c : Bool) : (s.setFlags p z n h c).pc = s.pc := rfl
@[simp] theorem State.setFlags_run (s : State) (p : FlagPos) (z n h c : Bool) : (s.setFlags p z n h c).run = s.run := rfl
@[simp] theorem State.setFlags_mem (s : State) (p : FlagPos) (z n h c : Bool) : (s.setFlags p z n h c).mem = s.mem := rfl

/-! ## Writing PC, SP, RUN and Memory -/

@[simp] theorem State.advance_pc (s : State) (k : Nat) : (s.advance k).pc = s.pc + BitVec.ofNat 16 k := rfl
@[simp] theorem State.advance_reg (s : State) (k : Nat) (q : Reg8) : (s.advance k).reg q = s.reg q := by
  cases q <;> rfl
@[simp] theorem State.advance_f (s : State) (k : Nat) : (s.advance k).f = s.f := rfl
@[simp] theorem State.advance_flagAt (s : State) (k : Nat) (p : FlagPos) (x : Flag) :
    (s.advance k).flagAt p x = s.flagAt p x := rfl
@[simp] theorem State.advance_sp (s : State) (k : Nat) : (s.advance k).sp = s.sp := rfl
@[simp] theorem State.advance_run (s : State) (k : Nat) : (s.advance k).run = s.run := rfl
@[simp] theorem State.advance_mem (s : State) (k : Nat) : (s.advance k).mem = s.mem := rfl

@[simp] theorem State.jump_pc (s : State) (w : Word) : (s.jump w).pc = w := rfl
@[simp] theorem State.jump_reg (s : State) (w : Word) (q : Reg8) : (s.jump w).reg q = s.reg q := by cases q <;> rfl
@[simp] theorem State.jump_f (s : State) (w : Word) : (s.jump w).f = s.f := rfl
@[simp] theorem State.jump_sp (s : State) (w : Word) : (s.jump w).sp = s.sp := rfl
@[simp] theorem State.jump_run (s : State) (w : Word) : (s.jump w).run = s.run := rfl
@[simp] theorem State.jump_mem (s : State) (w : Word) : (s.jump w).mem = s.mem := rfl

@[simp] theorem State.withSp_reg (s : State) (w : Word) (q : Reg8) : ({ s with sp := w } : State).reg q = s.reg q := by
  cases q <;> rfl
@[simp] theorem State.withMem_reg (s : State) (m : Memory) (q : Reg8) :
    ({ s with mem := m } : State).reg q = s.reg q := by
  cases q <;> rfl
@[simp] theorem State.withRun_reg (s : State) (r : RunState) (q : Reg8) :
    ({ s with run := r } : State).reg q = s.reg q := by
  cases q <;> rfl

@[simp] theorem takeEvent_reg (s : State) (ev : Event) (q : Reg8) : (takeEvent s ev).reg q = s.reg q := by
  cases q <;> rfl
@[simp] theorem takeEvent_f (s : State) (ev : Event) : (takeEvent s ev).f = s.f := rfl
@[simp] theorem takeEvent_sp (s : State) (ev : Event) : (takeEvent s ev).sp = s.sp := rfl
@[simp] theorem takeEvent_pc (s : State) (ev : Event) : (takeEvent s ev).pc = s.pc := rfl
@[simp] theorem takeEvent_mem (s : State) (ev : Event) : (takeEvent s ev).mem = s.mem := rfl
@[simp] theorem takeEvent_run (s : State) (ev : Event) : (takeEvent s ev).run = ev.runState := rfl

/-! ## Pairs -/

@[simp] theorem State.setPair_sp (s : State) (p : Pair) (w : Word) : (s.setPair p w).sp = s.sp := by cases p <;> rfl
@[simp] theorem State.setPair_pc (s : State) (p : Pair) (w : Word) : (s.setPair p w).pc = s.pc := by cases p <;> rfl
@[simp] theorem State.setPair_run (s : State) (p : Pair) (w : Word) : (s.setPair p w).run = s.run := by cases p <;> rfl
@[simp] theorem State.setPair_mem (s : State) (p : Pair) (w : Word) : (s.setPair p w).mem = s.mem := by cases p <;> rfl

theorem State.toNat_pair_bc (s : State) : (s.pair .bc).toNat = 256 * s.b.toNat + s.c.toNat := Word.toNat_ofBytes _ _
theorem State.toNat_pair_de (s : State) : (s.pair .de).toNat = 256 * s.d.toNat + s.e.toNat := Word.toNat_ofBytes _ _
theorem State.toNat_pair_hl (s : State) : (s.pair .hl).toNat = 256 * s.h.toNat + s.l.toNat := Word.toNat_ofBytes _ _
theorem State.toNat_pair_af (s : State) : (s.pair .af).toNat = 256 * s.a.toNat + s.f.toNat := Word.toNat_ofBytes _ _

/-- A pair other than AF reads back the word written to it. -/
theorem State.pair_setPair (s : State) (p : Pair) (w : Word) (h : p ≠ .af) : (s.setPair p w).pair p = w := by
  cases p <;> first | exact absurd rfl h | simp [State.setPair, State.pair]

end Sys2Proof.Machine
end

