-- ==== Sys2Proof/Laws/Flags.lean ====
section
/-! SUPPORT. F after a write of the flags (spec/10_state.md R26, R27). -/

namespace Sys2Proof.Machine

/-! ## FLAG_POS -/

@[simp] theorem Config.decided_flagPos : Config.decided.flagPos = FlagPos.decided := rfl
@[simp] theorem Config.small_flagPos : Config.small.flagPos = FlagPos.decided := rfl

theorem FlagPos.decided_wellFormed : FlagPos.decided.wellFormed = true := by decide

/-- A well-formed position lies in the high nibble. -/
theorem Flag.pos_bounds {p : FlagPos} (hp : p.wellFormed = true) (x : Flag) : 4 ≤ x.pos p ∧ x.pos p ≤ 7 := by
  simp only [FlagPos.wellFormed, Bool.and_eq_true, List.all_cons, List.all_nil, decide_eq_true_eq] at hp
  cases x <;> simp only [Flag.pos] <;> omega

/-- Two flags of a well-formed assignment stand at different bits. -/
theorem Flag.pos_inj {p : FlagPos} (hp : p.wellFormed = true) {x y : Flag} (h : x.pos p = y.pos p) : x = y := by
  simp only [FlagPos.wellFormed, Bool.and_eq_true, decide_eq_true_eq, List.nodup_cons, List.mem_cons, not_or] at hp
  obtain ⟨-, ⟨h1, h2, h3, -⟩, ⟨h4, h5, -⟩, ⟨h6, -⟩, -⟩ := hp
  cases x <;> cases y <;> simp only [Flag.pos] at h <;> first | rfl | omega

/-! ## Writing F -/

/-- One bit of one flag's byte. -/
theorem Flag.getLsbD_bit (p : FlagPos) (x : Flag) (b : Bool) {k : Nat} (hk : k < 8) :
    (x.bit p b).getLsbD k = (decide (k = x.pos p) && b) := by
  unfold Flag.bit
  rw [BitVec.getLsbD_shiftLeft]
  by_cases h : k < x.pos p
  · have : ¬ k = x.pos p := by omega
    simp [h, this]
  · by_cases e : k = x.pos p
    · have : k < 8 := hk
      cases b <;> simp [← e, this]
    · have h1 : k - x.pos p ≠ 0 := by omega
      simp [h1, e]

/-- A well-formed flag position is inside F's write mask. -/
theorem Flag.getLsbD_mask {p : FlagPos} (hp : p.wellFormed = true) (x : Flag) :
    (0xF0 : Byte).getLsbD (x.pos p) = true := by
  have mask : ∀ k, k < 8 → (0xF0 : Byte).getLsbD k = decide (4 ≤ k) := by decide
  have hx := Flag.pos_bounds hp x
  rw [mask _ (by omega), decide_eq_true hx.1]

/-- Under a well-formed assignment each flag reads what was written to it. -/
theorem State.flagAt_setFlags {p : FlagPos} (hp : p.wellFormed = true) (s : State) (z n h c : Bool) (x : Flag) :
    (s.setFlags p z n h c).flagAt p x = match x with | .z => z | .n => n | .h => h | .c => c := by
  have hx := Flag.pos_bounds hp x
  have h8 : x.pos p < 8 := by omega
  unfold State.flagAt State.setFlags State.setF packFlags
  rw [BitVec.getLsbD_and, Flag.getLsbD_mask hp x, Bool.and_true]
  simp only [BitVec.getLsbD_or, Flag.getLsbD_bit p _ _ h8]
  have inj : ∀ y : Flag, decide (x.pos p = y.pos p) = decide (x = y) := fun y => by
    rw [decide_eq_decide]
    exact ⟨Flag.pos_inj hp, fun e => e ▸ rfl⟩
  simp only [inj]
  cases x <;> simp

/-- Any write of F leaves the low nibble zero. -/
theorem and_F0_low (v : Byte) : (v &&& 0xF0) &&& 0x0F = 0 := by
  rw [BitVec.and_assoc]
  simp

/-- After all four flags are written the low nibble is zero. -/
theorem State.setFlags_clean (s : State) (p : FlagPos) (z n h c : Bool) : (s.setFlags p z n h c).f &&& 0x0F = 0 :=
  and_F0_low _

@[simp] theorem State.setFlags_z (s : State) (z n h c : Bool) : (s.setFlags FlagPos.decided z n h c).flag .z = z :=
  State.flagAt_setFlags FlagPos.decided_wellFormed s z n h c .z

@[simp] theorem State.setFlags_n (s : State) (z n h c : Bool) : (s.setFlags FlagPos.decided z n h c).flag .n = n :=
  State.flagAt_setFlags FlagPos.decided_wellFormed s z n h c .n

@[simp] theorem State.setFlags_h (s : State) (z n h c : Bool) : (s.setFlags FlagPos.decided z n h c).flag .h = h :=
  State.flagAt_setFlags FlagPos.decided_wellFormed s z n h c .h

@[simp] theorem State.setFlags_c (s : State) (z n h c : Bool) : (s.setFlags FlagPos.decided z n h c).flag .c = c :=
  State.flagAt_setFlags FlagPos.decided_wellFormed s z n h c .c

/-- At the decided places the packed byte is written as it is. -/
@[simp] theorem State.setFlags_f (s : State) (z n h c : Bool) :
    (s.setFlags FlagPos.decided z n h c).f = packFlags FlagPos.decided z n h c := by
  show packFlags FlagPos.decided z n h c &&& 0xF0 = packFlags FlagPos.decided z n h c
  cases z <;> cases n <;> cases h <;> cases c <;> decide

/-! ## The flag computations as predicates on numbers (40_inc_dec R113, 41_xor_cp R122) -/

theorem isZero_eq (v : Byte) : isZero v = decide (v.toNat = 0) := by
  unfold isZero
  rw [decide_eq_decide, ← BitVec.toNat_inj]
  rfl

theorem halfCarryInc_eq : ∀ v : Byte, halfCarryInc v = decide (v.toNat % 16 = 15) := by decide

theorem halfBorrowDec_eq : ∀ v : Byte, halfBorrowDec v = decide (v.toNat % 16 = 0) := by decide

theorem low_nibble_toNat : ∀ v : Byte, (v &&& 0x0F).toNat = v.toNat % 16 := by decide

theorem halfBorrowCp_eq (a n : Byte) : halfBorrowCp a n = decide (a.toNat % 16 < n.toNat % 16) := by
  unfold halfBorrowCp
  rw [low_nibble_toNat, low_nibble_toNat]

theorem carryRotate_eq : ∀ v : Byte, carryRotate v = decide (128 ≤ v.toNat) := by decide

theorem rotateLeft_toNat : ∀ (v : Byte) (c : Bool), (rotateLeft v c).toNat = (2 * v.toNat + c.toNat) % 256 := by
  decide

/-- Writing one flag writes that bit and no other (00_scope R14). -/
theorem State.flagAt_setFlag {p : FlagPos} (hp : p.wellFormed = true) (s : State) (x y : Flag) (b : Bool) :
    (s.setFlag p x b).flagAt p y = if y = x then b else s.flagAt p y := by
  have hy := Flag.pos_bounds hp y
  have h8 : y.pos p < 8 := by omega
  have hpos : y.pos p = x.pos p ↔ y = x := ⟨Flag.pos_inj hp, fun e => e ▸ rfl⟩
  unfold State.flagAt State.setFlag State.setF
  rw [BitVec.getLsbD_and, Flag.getLsbD_mask hp y, Bool.and_true]
  simp only [BitVec.getLsbD_and, BitVec.getLsbD_or, BitVec.getLsbD_not, Flag.getLsbD_bit p _ _ h8, h8, decide_true,
    Bool.and_true, Bool.true_and, hpos]
  by_cases e : y = x <;> simp [e]

end Sys2Proof.Machine
end

