-- ==== Sys2Proof/Laws/Memory.lean ====
section
/-! SUPPORT. Memory: read after write, and the canonical form kept by every operation (spec/20_memory.md R53, R62). -/

namespace Sys2Proof.Machine

/-- Every listed address of a canonical memory's tail lies above its head. -/
theorem Memory.wf_cons {k : Nat} {w : Byte} {rest : Memory} :
    Memory.wf ((k, w) :: rest) ↔ (∀ x ∈ rest, k < x.1) ∧ w ≠ Memory.unlisted ∧ Memory.wf rest := by
  constructor
  · rintro ⟨hp, hz⟩
    rw [List.pairwise_cons] at hp
    exact ⟨hp.1, hz _ List.mem_cons_self, hp.2, fun x hx => hz x (List.mem_cons_of_mem _ hx)⟩
  · rintro ⟨h1, h2, h3, h4⟩
    exact ⟨List.pairwise_cons.2 ⟨h1, h3⟩, fun x hx => (List.mem_cons.1 hx).elim (fun e => e ▸ h2) (h4 x)⟩

/-- Above every listed address nothing is listed. -/
theorem Memory.read_of_lt {m : Memory} {addr : Nat} (h : ∀ x ∈ m, addr < x.1) : m.read addr = Memory.unlisted := by
  induction m with
  | nil => rfl
  | cons x rest ih =>
    have hx := h x List.mem_cons_self
    have : x.1 ≠ addr := by omega
    simp only [Memory.read, if_neg this]
    exact ih fun y hy => h y (List.mem_cons_of_mem _ hy)

/-- A cell in front of addresses that lie above it. -/
theorem Memory.read_cell {rest : Memory} {addr : Nat} (v : Byte) (h : ∀ x ∈ rest, addr < x.1) (q : Nat) :
    (Memory.cell addr v rest).read q = if q = addr then v else rest.read q := by
  unfold Memory.cell
  by_cases hv : v = Memory.unlisted
  · rw [if_pos hv]
    by_cases hq : q = addr
    · rw [if_pos hq, hq, Memory.read_of_lt h, hv]
    · rw [if_neg hq]
  · rw [if_neg hv]
    by_cases hq : q = addr
    · simp [Memory.read, hq]
    · rw [if_neg hq]
      simp only [Memory.read]
      rw [if_neg fun e => hq e.symm]

/-- A read after a write: the byte written at its address, every other byte as before (20_memory R53, R62). -/
theorem Memory.read_write {m : Memory} (hm : m.wf) (addr : Nat) (v : Byte) (q : Nat) :
    (m.write addr v).read q = if q = addr then v else m.read q := by
  induction m with
  | nil => simpa [Memory.write] using Memory.read_cell (rest := []) v (by simp) q
  | cons x rest ih =>
    obtain ⟨k, w⟩ := x
    obtain ⟨hab, -, hr⟩ := Memory.wf_cons.1 hm
    simp only [Memory.write]
    by_cases h1 : addr < k
    · rw [if_pos h1]
      refine Memory.read_cell v ?_ q
      intro y hy
      rcases List.mem_cons.1 hy with e | e
      · rw [e]; exact h1
      · exact Nat.lt_trans h1 (hab y e)
    · rw [if_neg h1]
      by_cases h2 : addr = k
      · rw [if_pos h2, Memory.read_cell v (by rw [h2]; exact hab) q]
        by_cases hq : q = addr
        · simp [hq]
        · simp only [if_neg hq, Memory.read]
          have hk : ¬ k = q := fun e => hq (by rw [← e, h2])
          rw [if_neg hk]
      · rw [if_neg h2]
        simp only [Memory.read]
        rw [ih hr]
        by_cases hk : k = q
        · have : q ≠ addr := fun e => h2 (e ▸ hk.symm)
          simp [hk, this]
        · simp [hk]

/-- The addresses a write can list. -/
theorem Memory.mem_cell {addr : Nat} {v : Byte} {rest : Memory} {x : Host.Cell} (h : x ∈ Memory.cell addr v rest) :
    x = (addr, v) ∨ x ∈ rest := by
  unfold Memory.cell at h
  split at h
  · exact Or.inr h
  · exact List.mem_cons.1 h

theorem Memory.mem_write {m : Memory} {addr : Nat} {v : Byte} {x : Host.Cell} (h : x ∈ m.write addr v) :
    x = (addr, v) ∨ x ∈ m := by
  induction m with
  | nil => exact Memory.mem_cell h
  | cons y rest ih =>
    obtain ⟨k, w⟩ := y
    simp only [Memory.write] at h
    split at h
    · exact Memory.mem_cell h
    · split at h
      · exact (Memory.mem_cell h).imp_right (List.mem_cons_of_mem _)
      · rcases List.mem_cons.1 h with e | e
        · exact Or.inr (e ▸ List.mem_cons_self)
        · exact (ih e).imp_right (List.mem_cons_of_mem _)

theorem Memory.wf_cell {addr : Nat} {v : Byte} {rest : Memory} (h : ∀ x ∈ rest, addr < x.1) (hr : rest.wf) :
    (Memory.cell addr v rest).wf := by
  unfold Memory.cell
  split
  · exact hr
  · exact Memory.wf_cons.2 ⟨h, ‹_›, hr⟩

/-- A write keeps the canonical form. -/
theorem Memory.wf_write {m : Memory} (hm : m.wf) (addr : Nat) (v : Byte) : (m.write addr v).wf := by
  induction m with
  | nil => exact Memory.wf_cell (by simp) hm
  | cons x rest ih =>
    obtain ⟨k, w⟩ := x
    obtain ⟨hab, hw, hr⟩ := Memory.wf_cons.1 hm
    simp only [Memory.write]
    split
    · rename_i h1
      refine Memory.wf_cell ?_ hm
      intro y hy
      rcases List.mem_cons.1 hy with e | e
      · rw [e]; exact h1
      · exact Nat.lt_trans h1 (hab y e)
    · split
      · rename_i h2
        exact Memory.wf_cell (by rw [h2]; exact hab) hr
      · rename_i h1 h2
        refine Memory.wf_cons.2 ⟨?_, hw, ih hr⟩
        intro y hy
        rcases Memory.mem_write hy with e | e
        · rw [e]; simp only; omega
        · exact hab y e

/-- A read after two writes: the later one first. -/
theorem Memory.read_write_write {m : Memory} (hm : m.wf) (p : Nat) (v : Byte) (p' : Nat) (v' : Byte) (q : Nat) :
    ((m.write p v).write p' v').read q = if q = p' then v' else if q = p then v else m.read q := by
  rw [Memory.read_write (Memory.wf_write hm _ _), Memory.read_write hm]

/-- Beyond every address that exists nothing is listed. -/
theorem Memory.read_of_within {size : Nat} {m : Memory} (hm : Memory.within size m) {q : Nat} (hq : size ≤ q) :
    m.read q = Memory.unlisted := by
  induction m with
  | nil => rfl
  | cons x rest ih =>
    have hx := hm x List.mem_cons_self
    have hne : ¬ x.1 = q := by omega
    simp only [Memory.read, if_neg hne]
    exact ih fun y hy => hm y (List.mem_cons_of_mem _ hy)

/-- A write at an address that exists lists only addresses that exist. -/
theorem Memory.within_write {size : Nat} {m : Memory} (hm : Memory.within size m) {addr : Nat} (ha : addr < size)
    (v : Byte) : Memory.within size (m.write addr v) := by
  intro x hx
  rcases Memory.mem_write hx with e | e
  · rw [e]; exact ha
  · exact hm x e

/-- An image lists addresses from its base up to its end. -/
theorem Memory.mem_image {base : Nat} {bytes : List Byte} {x : Host.Cell} (h : x ∈ Memory.image base bytes) :
    base ≤ x.1 ∧ x.1 < base + bytes.length := by
  induction bytes generalizing base with
  | nil => simp [Memory.image] at h
  | cons v rest ih =>
    simp only [List.length_cons]
    rcases Memory.mem_cell h with e | e
    · subst e
      constructor <;> simp only <;> omega
    · have := ih e
      omega

theorem Memory.wf_image (base : Nat) (bytes : List Byte) : (Memory.image base bytes).wf := by
  induction bytes generalizing base with
  | nil => exact ⟨List.Pairwise.nil, by simp [Memory.image]⟩
  | cons v rest ih =>
    refine Memory.wf_cell ?_ (ih (base + 1))
    intro x hx
    have := Memory.mem_image hx
    omega

/-- An image is laid out verbatim; beyond it every byte reads as zero (20_memory R51). -/
theorem Memory.read_image (base : Nat) (bytes : List Byte) (i : Nat) :
    (Memory.image base bytes).read (base + i) = (bytes[i]?).getD Memory.unlisted := by
  induction bytes generalizing base i with
  | nil => rfl
  | cons v rest ih =>
    have hab : ∀ x ∈ Memory.image (base + 1) rest, base < x.1 := fun x hx => by
      have := Memory.mem_image hx
      omega
    rw [Memory.image, Memory.read_cell v hab]
    cases i with
    | zero => simp
    | succ j =>
      have h : ¬ base + (j + 1) = base := by omega
      have e : base + (j + 1) = base + 1 + j := by omega
      rw [if_neg h, e, ih]
      simp

/-- Two canonical memories that read alike are equal data: the form is canonical. -/
theorem Memory.eq_of_read {m m' : Memory} (hm : m.wf) (hm' : m'.wf) (h : ∀ q, m.read q = m'.read q) : m = m' := by
  induction m generalizing m' with
  | nil =>
    cases m' with
    | nil => rfl
    | cons y rest =>
      obtain ⟨k, w⟩ := y
      have := h k
      simp [Memory.read] at this
      exact absurd this.symm (Memory.wf_cons.1 hm').2.1
  | cons x rest ih =>
    obtain ⟨k, w⟩ := x
    obtain ⟨hab, hw, hr⟩ := Memory.wf_cons.1 hm
    cases m' with
    | nil =>
      have := h k
      simp [Memory.read] at this
      exact absurd this hw
    | cons y rest' =>
      obtain ⟨k', w'⟩ := y
      obtain ⟨hab', hw', hr'⟩ := Memory.wf_cons.1 hm'
      have hk : k = k' := by
        rcases Nat.lt_trichotomy k k' with c | c | c
        · have e := h k
          rw [Memory.read_of_lt (m := (k', w') :: rest') (by
            intro z hz
            rcases List.mem_cons.1 hz with i | i
            · rw [i]; exact c
            · exact Nat.lt_trans c (hab' z i))] at e
          simp [Memory.read] at e
          exact absurd e hw
        · exact c
        · have e := h k'
          rw [Memory.read_of_lt (m := (k, w) :: rest) (by
            intro z hz
            rcases List.mem_cons.1 hz with i | i
            · rw [i]; exact c
            · exact Nat.lt_trans c (hab z i))] at e
          simp [Memory.read] at e
          exact absurd e.symm hw'
      subst hk
      have hv : w = w' := by
        have e := h k
        simpa [Memory.read] using e
      subst hv
      have hrest : rest = rest' := by
        refine ih hr hr' fun q => ?_
        by_cases hq : k = q
        · subst hq
          rw [Memory.read_of_lt hab, Memory.read_of_lt hab']
        · have e := h q
          simpa [Memory.read, hq] using e
      rw [hrest]

end Sys2Proof.Machine
end

