-- ==== Sys2Proof/Laws/Ops.lean ====
section
/-! SUPPORT. One lemma per shared operation, saying everything it can do. -/

namespace Sys2Proof.Machine

@[simp] theorem decided_memSize : Config.decided.memSize = 65536 := rfl
@[simp] theorem small_memSize : Config.small.memSize = 65535 := rfl

/-! ## Addresses -/

/-- With 64 KiB a 16-bit value is always an address that exists (20_memory R54). -/
theorem inRange_wordAddr (w : Word) : inRange Config.decided (wordAddr w) := by
  have := w.isLt
  refine ⟨Int.natCast_nonneg _, ?_⟩
  simp only [decided_memSize, wordAddr]
  omega

/-- With 64 KiB every zero-page address exists (20_memory R54). -/
theorem inRange_zeroPageAddr (n : Byte) : inRange Config.decided (zeroPageAddr n) := by
  have := n.isLt
  constructor
  · unfold zeroPageAddr; omega
  · simp only [decided_memSize, zeroPageAddr]; omega

@[simp] theorem toNat_wordAddr (w : Word) : (wordAddr w).toNat = w.toNat := rfl

theorem toNat_zeroPageAddr (n : Byte) : (zeroPageAddr n).toNat = 0xFF00 + n.toNat := by
  unfold zeroPageAddr
  omega

/-! ## Accesses -/

theorem index_of_inRange {c : Config} {addr : Int} (h : inRange c addr) : index c addr = some addr.toNat := by
  obtain ⟨h0, h1⟩ := h
  cases addr with
  | ofNat k =>
    have hk : k < c.memSize := Int.ofNat_lt.1 h1
    exact if_pos hk
  | negSucc k => exact absurd h0 (by omega)

theorem index_of_not_inRange {c : Config} {addr : Int} (h : ¬ inRange c addr) : index c addr = none := by
  cases addr with
  | ofNat k =>
    have hk : ¬ k < c.memSize := fun hlt => h ⟨Int.natCast_nonneg k, Int.ofNat_lt.2 hlt⟩
    exact if_neg hk
  | negSucc k => rfl

theorem memRead_of_inRange {c : Config} {s : State} {addr : Int} (h : inRange c addr) :
    memRead c s addr = .ok (s.mem.read addr.toNat) := by
  unfold memRead
  rw [index_of_inRange h]

theorem memRead_of_not_inRange {c : Config} {s : State} {addr : Int} (h : ¬ inRange c addr) :
    memRead c s addr = .error addr := by
  unfold memRead
  rw [index_of_not_inRange h]

theorem memWrite_of_inRange {c : Config} {s : State} {addr : Int} {v : Byte} (h : inRange c addr) :
    memWrite c s addr v = .ok { s with mem := s.mem.write addr.toNat v } := by
  unfold memWrite
  rw [index_of_inRange h]

theorem memWrite_of_not_inRange {c : Config} {s : State} {addr : Int} {v : Byte} (h : ¬ inRange c addr) :
    memWrite c s addr v = .error addr := by
  unfold memWrite
  rw [index_of_not_inRange h]

/-- Everything a read can do. -/
theorem memRead_cases (c : Config) (s : State) (addr : Int) :
    (inRange c addr ∧ memRead c s addr = .ok (s.mem.read addr.toNat)) ∨
    (¬ inRange c addr ∧ memRead c s addr = .error addr) := by
  by_cases h : inRange c addr
  · exact Or.inl ⟨h, memRead_of_inRange h⟩
  · exact Or.inr ⟨h, memRead_of_not_inRange h⟩

/-- Everything a write can do. -/
theorem memWrite_cases (c : Config) (s : State) (addr : Int) (v : Byte) :
    (inRange c addr ∧ memWrite c s addr v = .ok { s with mem := s.mem.write addr.toNat v }) ∨
    (¬ inRange c addr ∧ memWrite c s addr v = .error addr) := by
  by_cases h : inRange c addr
  · exact Or.inl ⟨h, memWrite_of_inRange h⟩
  · exact Or.inr ⟨h, memWrite_of_not_inRange h⟩

/-- Everything a push can do. -/
theorem push_cases (c : Config) (v : Word) (s : State) :
    (inRange c (pushAddr s) ∧ inRange c (pushAddr s + 1) ∧
      push c v s = .ok { s with sp := s.sp - 2,
                                mem := (s.mem.write (pushAddr s).toNat v.low).write (pushAddr s + 1).toNat v.high }) ∨
    (¬ inRange c (pushAddr s) ∧ push c v s = .error (pushAddr s)) ∨
    (inRange c (pushAddr s) ∧ ¬ inRange c (pushAddr s + 1) ∧ push c v s = .error (pushAddr s + 1)) := by
  by_cases h1 : inRange c (pushAddr s)
  · by_cases h2 : inRange c (pushAddr s + 1)
    · exact Or.inl ⟨h1, h2, by simp only [push, memWrite16, memWrite_of_inRange h1, memWrite_of_inRange h2]⟩
    · exact Or.inr (Or.inr ⟨h1, h2, by
        simp only [push, memWrite16, memWrite_of_inRange h1, memWrite_of_not_inRange h2]⟩)
  · exact Or.inr (Or.inl ⟨h1, by simp only [push, memWrite16, memWrite_of_not_inRange h1]⟩)

/-- Everything a pop can do. -/
theorem pop_cases (c : Config) (s : State) :
    (inRange c (popAddr s) ∧ inRange c (popAddr s + 1) ∧
      pop c s = .ok (Word.ofBytes (s.mem.read (popAddr s + 1).toNat) (s.mem.read (popAddr s).toNat),
        { s with sp := s.sp + 2 })) ∨
    (¬ inRange c (popAddr s) ∧ pop c s = .error (popAddr s)) ∨
    (inRange c (popAddr s) ∧ ¬ inRange c (popAddr s + 1) ∧ pop c s = .error (popAddr s + 1)) := by
  by_cases h1 : inRange c (popAddr s)
  · by_cases h2 : inRange c (popAddr s + 1)
    · exact Or.inl ⟨h1, h2, by simp only [pop, memRead16, memRead_of_inRange h1, memRead_of_inRange h2]⟩
    · exact Or.inr (Or.inr ⟨h1, h2, by
        simp only [pop, memRead16, memRead_of_inRange h1, memRead_of_not_inRange h2]⟩)
  · exact Or.inr (Or.inl ⟨h1, by
      rcases memRead_cases c s (popAddr s + 1) with ⟨_, h2⟩ | ⟨_, h2⟩ <;>
        simp only [pop, memRead16, memRead_of_not_inRange h1, h2]⟩)

/-- A push that has room: the stored word's halves at SP - 1 and SP. -/
theorem push_of_lt {c : Config} {s : State} (v : Word) (h1 : 1 ≤ s.sp.toNat) (h2 : s.sp.toNat < c.memSize) :
    push c v s =
      .ok { s with sp := s.sp - 2, mem := (s.mem.write (s.sp.toNat - 1) v.low).write s.sp.toNat v.high } := by
  have e0 : pushAddr s = (s.sp.toNat : Int) - 1 := rfl
  have e1 : (pushAddr s).toNat = s.sp.toNat - 1 := by omega
  have e2 : (pushAddr s + 1).toNat = s.sp.toNat := by omega
  rcases push_cases c v s with ⟨_, _, h⟩ | ⟨hn, _⟩ | ⟨_, hn, _⟩
  · rw [h, e1, e2]
  · exact absurd ⟨by omega, by omega⟩ hn
  · exact absurd ⟨by omega, by omega⟩ hn

/-- A pop that has room: the word at SP + 1 and SP + 2. -/
theorem pop_of_lt {c : Config} {s : State} (h : s.sp.toNat + 2 < c.memSize) :
    pop c s =
      .ok (Word.ofBytes (s.mem.read (s.sp.toNat + 2)) (s.mem.read (s.sp.toNat + 1)), { s with sp := s.sp + 2 }) := by
  have e0 : popAddr s = (s.sp.toNat : Int) + 1 := rfl
  have e1 : (popAddr s).toNat = s.sp.toNat + 1 := by omega
  have e2 : (popAddr s + 1).toNat = s.sp.toNat + 2 := by omega
  rcases pop_cases c s with ⟨_, _, h⟩ | ⟨hn, _⟩ | ⟨_, hn, _⟩
  · rw [h, e1, e2]
  · exact absurd ⟨by omega, by omega⟩ hn
  · exact absurd ⟨by omega, by omega⟩ hn

/-- Every event ends the run. -/
theorem Event.runState_ne_fetching (ev : Event) : ev.runState ≠ .fetching := by
  cases ev <;> exact fun h => by cases h

/-- A committed access always answers a next state. -/
theorem commit_next (s : State) (x : Access State) : ∃ t, commit s x = .next t := by
  cases x <;> exact ⟨_, rfl⟩

@[simp] theorem commit_ok (s t : State) : commit s (.ok t) = .next t := rfl
@[simp] theorem commit_error (s : State) (k : Int) : commit s (.error k) = .next (takeEvent s (.indexFault k)) := rfl

/-! ## Fetch -/

/-- Away from the top of Memory the three bytes at PC are there. -/
theorem fetchBytes_of_lt {c : Config} {s : State} (h : s.pc.toNat + 2 < c.memSize) :
    fetchBytes c s = [s.mem.read s.pc.toNat, s.mem.read (s.pc.toNat + 1), s.mem.read (s.pc.toNat + 2)] := by
  have h0 : s.pc.toNat < c.memSize := by omega
  have h1 : s.pc.toNat + 1 < c.memSize := by omega
  simp [fetchBytes, h0, h1, h]

/-- The last two bytes of Memory. -/
theorem fetchBytes_of_eq_two {c : Config} {s : State} (h : s.pc.toNat + 2 = c.memSize) :
    fetchBytes c s = [s.mem.read s.pc.toNat, s.mem.read (s.pc.toNat + 1)] := by
  have h0 : s.pc.toNat < c.memSize := by omega
  have h1 : s.pc.toNat + 1 < c.memSize := by omega
  have h2 : ¬ s.pc.toNat + 2 < c.memSize := by omega
  simp [fetchBytes, h0, h1, h2]

/-- The last byte of Memory. -/
theorem fetchBytes_of_eq_one {c : Config} {s : State} (h : s.pc.toNat + 1 = c.memSize) :
    fetchBytes c s = [s.mem.read s.pc.toNat] := by
  have h0 : s.pc.toNat < c.memSize := by omega
  have h1 : ¬ s.pc.toNat + 1 < c.memSize := by omega
  have h2 : ¬ s.pc.toNat + 2 < c.memSize := by omega
  simp [fetchBytes, h0, h1, h2]

/-- What is fetched begins with the byte at PC. -/
theorem fetchBytes_head {c : Config} {s : State} (h : s.pc.toNat < c.memSize) :
    ∃ tail, fetchBytes c s = s.mem.read s.pc.toNat :: tail := by
  rcases Nat.lt_trichotomy (s.pc.toNat + 2) c.memSize with a | a | a
  · exact ⟨_, fetchBytes_of_lt a⟩
  · exact ⟨_, fetchBytes_of_eq_two a⟩
  · exact ⟨_, fetchBytes_of_eq_one (by omega)⟩

/-- Everything a fetch can give. -/
theorem fetch_cases (c : Config) (s : State) :
    (c.memSize ≤ s.pc.toNat ∧ fetch c s = .event .halted) ∨
    (s.pc.toNat < c.memSize ∧
      ((∃ i rest, decodeAt c (fetchBytes c s) = .instr i rest ∧ fetch c s = .instr i) ∨
       (∃ op, decodeAt c (fetchBytes c s) = .unknown op ∧ fetch c s = .event (.unknownOpcode op s.pc)) ∨
       (∃ sub, decodeAt c (fetchBytes c s) = .unimplemented sub ∧ fetch c s = .event (.unimplementedOpcode sub s.pc)) ∨
       (∃ k, decodeAt c (fetchBytes c s) = .short k ∧ fetch c s = .event (.indexFault (wordAddr s.pc + k))))) := by
  unfold fetch
  by_cases h : c.memSize ≤ s.pc.toNat
  · exact Or.inl ⟨h, if_pos h⟩
  · refine Or.inr ⟨by omega, ?_⟩
    rw [if_neg h]
    cases hd : decodeAt c (fetchBytes c s) with
    | instr i rest => exact Or.inl ⟨i, rest, rfl, rfl⟩
    | unknown op => exact Or.inr (Or.inl ⟨op, rfl, rfl⟩)
    | unimplemented sub => exact Or.inr (Or.inr (Or.inl ⟨sub, rfl, rfl⟩))
    | short k => exact Or.inr (Or.inr (Or.inr ⟨k, rfl, rfl⟩))

/-! ## The step -/

theorem stepWith_of_ended {c : Config} {m : Instr → State → Result} {s : State} (h : s.run ≠ .fetching) :
    stepWith c m s = .next s := by
  unfold stepWith
  cases hr : s.run with
  | fetching => exact absurd hr h
  | unknownOpcode op addr => rfl
  | unimplementedOpcode sub addr => rfl
  | halted => rfl
  | faulted addr => rfl

theorem stepWith_of_instr {c : Config} {m : Instr → State → Result} {s : State} {i : Instr}
    (h : s.run = .fetching) (hf : fetch c s = .instr i) : stepWith c m s = m i s := by
  unfold stepWith
  rw [h]
  simp only [hf]

theorem stepWith_of_event {c : Config} {m : Instr → State → Result} {s : State} {ev : Event}
    (h : s.run = .fetching) (hf : fetch c s = .event ev) : stepWith c m s = .next (takeEvent s ev) := by
  unfold stepWith
  rw [h]
  simp only [hf]

/-- Everything a step can do: absorb, run the decoded instruction, or take an event. -/
theorem stepWith_cases (c : Config) (m : Instr → State → Result) (s : State) :
    (s.run ≠ .fetching ∧ stepWith c m s = .next s) ∨
    (s.run = .fetching ∧ ∃ i, fetch c s = .instr i ∧ stepWith c m s = m i s) ∨
    (s.run = .fetching ∧ ∃ ev, fetch c s = .event ev ∧ stepWith c m s = .next (takeEvent s ev)) := by
  by_cases h : s.run = .fetching
  · cases hf : fetch c s with
    | instr i => exact Or.inr (Or.inl ⟨h, i, rfl, stepWith_of_instr h hf⟩)
    | event ev => exact Or.inr (Or.inr ⟨h, ev, rfl, stepWith_of_event h hf⟩)
  · exact Or.inl ⟨h, stepWith_of_ended h⟩

end Sys2Proof.Machine
end

