-- ==== Sys2Proof/Laws/Forms.lean ====
section
/-! SUPPORT. The fixed machine is the machine of forms at `Config.decided`, and what a form can do. -/

namespace Sys2Proof.Machine

/-- The meaning of an instruction is the meaning of its form at `MEM_SIZE` = 65536. -/
theorem exec_eq_runForm (i : Instr) (s : State) : exec i s = runForm Config.decided i.form s := by
  cases i <;> rfl

/-- The form of a form's instruction. -/
@[simp] theorem form_instr (f : Form) : f.instr.form = f := by
  cases f with
  | bitBR b r =>
    revert b r
    intro b r
    cases r <;> revert b <;> decide
  | ldRR dst src => cases dst <;> cases src <;> rfl
  | incR r => cases r <;> rfl
  | decR r => cases r <;> rfl
  | xorR r => cases r <;> rfl
  | rlR r => cases r <;> rfl
  | ldRN r n => cases r <;> rfl
  | ldRAtHl r => cases r <;> rfl
  | ldAtHlR r => cases r <;> rfl
  | incRr rr => cases rr <;> rfl
  | ldRrNn rr nn => cases rr <;> rfl
  | push p => cases p <;> rfl
  | pop p => cases p <;> rfl
  | jrCc cc e => cases cc <;> rfl
  | cpN n => rfl
  | rla => rfl
  | ldAAtBc => rfl
  | ldAAtDe => rfl
  | ldAtBcA => rfl
  | ldAtDeA => rfl
  | ldAtHlIncA => rfl
  | ldAAtHlInc => rfl
  | ldAtHlDecA => rfl
  | ldAAtHlDec => rfl
  | ldhAtNA n => rfl
  | ldhAAtN n => rfl
  | ldAtCA => rfl
  | ldAAtC => rfl
  | ldAtNnA nn => rfl
  | ldAAtNn nn => rfl
  | call nn => rfl
  | ret => rfl
  | jr e => rfl
  | jp nn => rfl

/-- The instruction of an instruction's form. -/
@[simp] theorem instr_form (i : Instr) : i.form.instr = i := by
  cases i <;> rfl

/-- Running the instruction of a form. -/
theorem exec_instr (f : Form) (s : State) : exec f.instr s = runForm Config.decided f s := by
  rw [exec_eq_runForm, form_instr]

/-- PC advanced from where it was. -/
theorem pcPast_advance {s u : State} (h : u.pc = s.pc) (len : Nat) : pcPast len s (u.advance len) := by
  unfold pcPast
  rw [State.advance_pc, h, BitVec.toNat_add, BitVec.toNat_ofNat]
  simp

/-- Equal memories read alike. -/
theorem bytesKept_of_mem {s t : State} (h : t.mem = s.mem) (but : List Nat) : bytesKept but s t := by
  intro addr _
  unfold State.byteAt
  rw [h]

/-- Writing one register keeps the others. -/
theorem regsKept_setReg (s : State) (r : Reg8) (v : Byte) : regsKept [r] s (s.setReg r v) := by
  intro q hq
  exact State.reg_setReg_of_ne s r q v fun e => hq (e ▸ List.mem_singleton.2 rfl)

/-- The fixed step is the step of the configuration `Config.decided`. -/
theorem step_eq_stepAt (s : State) : step s = stepAt Config.decided s := by
  have h : exec = execAt Config.decided := by
    funext i s
    exact exec_eq_runForm i s
  unfold step stepAt
  rw [h]

/-- What a completed form may have done to RUN, F and Memory. -/
structure Completed (c : Config) (s t : State) : Prop where
  run : t.run = s.run
  flags : t.f = s.f ∨ t.f &&& 0xF0 = t.f
  mem : t.mem = s.mem ∨
    (∃ a v, a < c.memSize ∧ t.mem = s.mem.write a v) ∨
    (∃ a v b w, a < c.memSize ∧ b < c.memSize ∧ t.mem = (s.mem.write a v).write b w)

theorem and_F0_F0 (v : Byte) : (v &&& 0xF0) &&& 0xF0 = v &&& 0xF0 := by
  rw [BitVec.and_assoc, BitVec.and_self]

/-- A change of registers other than F. -/
theorem Completed.ofRegs {c : Config} {s t : State} (hr : t.run = s.run) (hf : t.f = s.f) (hm : t.mem = s.mem) :
    Completed c s t := ⟨hr, Or.inl hf, Or.inl hm⟩

/-- The two answers of a form: completed, or an index fault at an address that does not exist. -/
def Answers (c : Config) (s : State) (r : Result) : Prop :=
  (∃ t, r = .next t ∧ Completed c s t) ∨
  (∃ k, ¬ inRange c k ∧ r = .next (takeEvent s (.indexFault k)))

theorem Answers.next {c : Config} {s t : State} (h : Completed c s t) : Answers c s (.next t) := Or.inl ⟨t, rfl, h⟩

theorem toNat_lt_of_inRange {c : Config} {addr : Int} (h : inRange c addr) : addr.toNat < c.memSize := by
  have := h.1
  have := h.2
  omega

theorem answers_load (c : Config) (r : Reg8) (addr : Int) (len : Nat) (s : State) :
    Answers c s (commit s (loadFrom c r addr len s)) := by
  rcases memRead_cases c s addr with ⟨_, h⟩ | ⟨hn, h⟩
  · simp only [loadFrom, h]
    exact .next (Completed.ofRegs (by simp) (by simp) (by simp))
  · exact Or.inr ⟨addr, hn, by simp only [loadFrom, h]; rfl⟩

theorem answers_store (c : Config) (addr : Int) (v : Byte) (len : Nat) (s : State) :
    Answers c s (commit s (storeTo c addr v len s)) := by
  rcases memWrite_cases c s addr v with ⟨hi, h⟩ | ⟨hn, h⟩
  · simp only [storeTo, h]
    exact .next ⟨rfl, Or.inl rfl, Or.inr (Or.inl ⟨_, _, toNat_lt_of_inRange hi, rfl⟩)⟩
  · exact Or.inr ⟨addr, hn, by simp only [storeTo, h]; rfl⟩

theorem answers_loadHl (c : Config) (d : Int) (s : State) : Answers c s (loadAHl c d s) := by
  rcases memRead_cases c s (wordAddr (s.pair .hl)) with ⟨_, h⟩ | ⟨hn, h⟩
  · simp only [loadAHl, loadFrom, h, thenHl]
    exact .next (Completed.ofRegs rfl rfl rfl)
  · exact Or.inr ⟨_, hn, by simp only [loadAHl, loadFrom, h, thenHl]; rfl⟩

theorem answers_storeHl (c : Config) (d : Int) (s : State) : Answers c s (storeAHl c d s) := by
  rcases memWrite_cases c s (wordAddr (s.pair .hl)) s.a with ⟨hi, h⟩ | ⟨hn, h⟩
  · simp only [storeAHl, storeTo, h, thenHl]
    exact .next ⟨rfl, Or.inl rfl, Or.inr (Or.inl ⟨_, _, toNat_lt_of_inRange hi, rfl⟩)⟩
  · exact Or.inr ⟨_, hn, by simp only [storeAHl, storeTo, h, thenHl]; rfl⟩

theorem answers_push (c : Config) (v : Word) (g : State → State) (s : State)
    (hr : ∀ t, (g t).run = t.run) (hf : ∀ t, (g t).f = t.f) (hm : ∀ t, (g t).mem = t.mem) :
    Answers c s (commit s ((push c v s).map g)) := by
  rcases push_cases c v s with ⟨h1, h2, h⟩ | ⟨h1, h⟩ | ⟨_, h2, h⟩
  · rw [h]
    exact .next ⟨hr _, Or.inl (hf _), Or.inr (Or.inr
      ⟨_, _, _, _, toNat_lt_of_inRange h1, toNat_lt_of_inRange h2, hm _⟩)⟩
  · exact Or.inr ⟨_, h1, by rw [h]; rfl⟩
  · exact Or.inr ⟨_, h2, by rw [h]; rfl⟩

theorem answers_pop (c : Config) (g : Word × State → State) (s : State)
    (hr : ∀ v t, (g (v, t)).run = t.run) (hf : ∀ v t, (g (v, t)).f = t.f ∨ (g (v, t)).f &&& 0xF0 = (g (v, t)).f)
    (hm : ∀ v t, (g (v, t)).mem = t.mem) : Answers c s (commit s ((pop c s).map g)) := by
  rcases pop_cases c s with ⟨_, _, h⟩ | ⟨h1, h⟩ | ⟨_, h2, h⟩
  · rw [h]
    exact .next ⟨hr _ _, hf _ _, Or.inl (hm _ _)⟩
  · exact Or.inr ⟨_, h1, by rw [h]; rfl⟩
  · exact Or.inr ⟨_, h2, by rw [h]; rfl⟩

theorem completed_flags (c : Config) (s u : State) (z n h cy : Bool) (len : Nat) (hr : u.run = s.run)
    (hm : u.mem = s.mem) : Completed c s ((u.setFlags c.flagPos z n h cy).advance len) :=
  ⟨hr, Or.inr (and_F0_F0 _), Or.inl hm⟩

/-- Everything a form can do: it answers a next state, completed or faulted at an address that does not exist. -/
theorem runForm_answers (c : Config) (f : Form) (s : State) : Answers c s (runForm c f s) := by
  cases f with
  | incR r => exact .next (completed_flags _ _ _ _ _ _ _ _ (by simp) (by simp))
  | decR r => exact .next (completed_flags _ _ _ _ _ _ _ _ (by simp) (by simp))
  | incRr rr => cases rr <;> exact .next (Completed.ofRegs rfl rfl rfl)
  | xorR r => exact .next (completed_flags _ _ _ _ _ _ _ _ (by simp) (by simp))
  | cpN n => exact .next (completed_flags _ _ _ _ _ _ _ _ rfl rfl)
  | bitBR b r => exact .next (completed_flags _ _ _ _ _ _ _ _ rfl rfl)
  | rla => exact .next (completed_flags _ _ _ _ _ _ _ _ (by simp) (by simp))
  | rlR r => exact .next (completed_flags _ _ _ _ _ _ _ _ (by simp) (by simp))
  | ldRR dst src => exact .next (Completed.ofRegs (by simp) (by simp) (by simp))
  | ldRN r n => exact .next (Completed.ofRegs (by simp) (by simp) (by simp))
  | ldRrNn rr nn => cases rr <;> exact .next (Completed.ofRegs rfl rfl rfl)
  | ldRAtHl r => exact answers_load _ _ _ _ _
  | ldAtHlR r => exact answers_store _ _ _ _ _
  | ldAAtBc => exact answers_load _ _ _ _ _
  | ldAAtDe => exact answers_load _ _ _ _ _
  | ldAtBcA => exact answers_store _ _ _ _ _
  | ldAtDeA => exact answers_store _ _ _ _ _
  | ldAtHlIncA => exact answers_storeHl _ _ _
  | ldAAtHlInc => exact answers_loadHl _ _ _
  | ldAtHlDecA => exact answers_storeHl _ _ _
  | ldAAtHlDec => exact answers_loadHl _ _ _
  | ldhAtNA n => exact answers_store _ _ _ _ _
  | ldhAAtN n => exact answers_load _ _ _ _ _
  | ldAtCA => exact answers_store _ _ _ _ _
  | ldAAtC => exact answers_load _ _ _ _ _
  | ldAtNnA nn => exact answers_store _ _ _ _ _
  | ldAAtNn nn => exact answers_load _ _ _ _ _
  | push p => exact answers_push _ _ _ _ (fun _ => rfl) (fun _ => rfl) (fun _ => rfl)
  | pop p =>
    refine answers_pop _ _ _ (fun _ _ => by simp) (fun v t => ?_) (fun _ _ => by simp)
    cases p
    · exact Or.inl rfl
    · exact Or.inl rfl
    · exact Or.inl rfl
    · exact Or.inr (and_F0_F0 _)
  | call nn => exact answers_push _ _ _ _ (fun _ => rfl) (fun _ => rfl) (fun _ => rfl)
  | ret => exact answers_pop _ _ _ (fun _ _ => rfl) (fun _ _ => Or.inl rfl) (fun _ _ => rfl)
  | jrCc cc e =>
    show Answers c s (jumpRelIf c cc e s)
    unfold jumpRelIf
    split <;> exact .next (Completed.ofRegs rfl rfl rfl)
  | jr e => exact .next (Completed.ofRegs rfl rfl rfl)
  | jp nn => exact .next (Completed.ofRegs rfl rfl rfl)

end Sys2Proof.Machine
end

