-- ==== Sys2Proof/Laws/PerInstr.lean ====
section
/-! SUPPORT. What holds of each instruction as syntax: it is the row its form selects, and it is 1 to 3 bytes long
(spec/30_encoding.md R82, R88). -/

namespace Sys2Proof.Laws.FormInverse

/-- An instruction is the table row of its own form, is well-formed, and its bytes number 1 to 3, as its form says. -/
def Statement (i : Instr) : Prop :=
  i.form.instr = i ∧ i.wellFormed = true ∧ (encode i).length = i.form.len ∧ 1 ≤ i.form.len ∧ i.form.len ≤ 3

theorem len_bounds (f : Form) : 1 ≤ f.len ∧ f.len ≤ 3 := by
  cases f <;> exact ⟨by simp [Form.len], by simp [Form.len]⟩

theorem ldBcNn (nn : Word) : Statement (.ldBcNn nn) := 
  ⟨rfl, rfl, rfl, len_bounds _⟩

theorem ldAtBcA : Statement .ldAtBcA := 
  ⟨rfl, rfl, rfl, len_bounds _⟩

theorem incBc : Statement .incBc := 
  ⟨rfl, rfl, rfl, len_bounds _⟩

theorem incB : Statement .incB := 
  ⟨rfl, rfl, rfl, len_bounds _⟩

theorem decB : Statement .decB := 
  ⟨rfl, rfl, rfl, len_bounds _⟩

theorem ldBN (n : Byte) : Statement (.ldBN n) := 
  ⟨rfl, rfl, rfl, len_bounds _⟩

theorem ldAAtBc : Statement .ldAAtBc := 
  ⟨rfl, rfl, rfl, len_bounds _⟩

theorem incC : Statement .incC := 
  ⟨rfl, rfl, rfl, len_bounds _⟩

theorem decC : Statement .decC := 
  ⟨rfl, rfl, rfl, len_bounds _⟩

theorem ldCN (n : Byte) : Statement (.ldCN n) := 
  ⟨rfl, rfl, rfl, len_bounds _⟩

theorem ldDeNn (nn : Word) : Statement (.ldDeNn nn) := 
  ⟨rfl, rfl, rfl, len_bounds _⟩

theorem ldAtDeA : Statement .ldAtDeA := 
  ⟨rfl, rfl, rfl, len_bounds _⟩

theorem incDe : Statement .incDe := 
  ⟨rfl, rfl, rfl, len_bounds _⟩

theorem incD : Statement .incD := 
  ⟨rfl, rfl, rfl, len_bounds _⟩

theorem decD : Statement .decD := 
  ⟨rfl, rfl, rfl, len_bounds _⟩

theorem ldDN (n : Byte) : Statement (.ldDN n) := 
  ⟨rfl, rfl, rfl, len_bounds _⟩

theorem rla : Statement .rla := 
  ⟨rfl, rfl, rfl, len_bounds _⟩

theorem jrE (e : Byte) : Statement (.jrE e) := 
  ⟨rfl, rfl, rfl, len_bounds _⟩

theorem ldAAtDe : Statement .ldAAtDe := 
  ⟨rfl, rfl, rfl, len_bounds _⟩

theorem incE : Statement .incE := 
  ⟨rfl, rfl, rfl, len_bounds _⟩

theorem decE : Statement .decE := 
  ⟨rfl, rfl, rfl, len_bounds _⟩

theorem ldEN (n : Byte) : Statement (.ldEN n) := 
  ⟨rfl, rfl, rfl, len_bounds _⟩

theorem jrNz (e : Byte) : Statement (.jrNz e) := 
  ⟨rfl, rfl, rfl, len_bounds _⟩

theorem ldHlNn (nn : Word) : Statement (.ldHlNn nn) := 
  ⟨rfl, rfl, rfl, len_bounds _⟩

theorem ldAtHlIncA : Statement .ldAtHlIncA := 
  ⟨rfl, rfl, rfl, len_bounds _⟩

theorem incHl : Statement .incHl := 
  ⟨rfl, rfl, rfl, len_bounds _⟩

theorem incH : Statement .incH := 
  ⟨rfl, rfl, rfl, len_bounds _⟩

theorem decH : Statement .decH := 
  ⟨rfl, rfl, rfl, len_bounds _⟩

theorem ldHN (n : Byte) : Statement (.ldHN n) := 
  ⟨rfl, rfl, rfl, len_bounds _⟩

theorem jrZ (e : Byte) : Statement (.jrZ e) := 
  ⟨rfl, rfl, rfl, len_bounds _⟩

theorem ldAAtHlInc : Statement .ldAAtHlInc := 
  ⟨rfl, rfl, rfl, len_bounds _⟩

theorem incL : Statement .incL := 
  ⟨rfl, rfl, rfl, len_bounds _⟩

theorem decL : Statement .decL := 
  ⟨rfl, rfl, rfl, len_bounds _⟩

theorem ldLN (n : Byte) : Statement (.ldLN n) := 
  ⟨rfl, rfl, rfl, len_bounds _⟩

theorem jrNc (e : Byte) : Statement (.jrNc e) := 
  ⟨rfl, rfl, rfl, len_bounds _⟩

theorem ldSpNn (nn : Word) : Statement (.ldSpNn nn) := 
  ⟨rfl, rfl, rfl, len_bounds _⟩

theorem ldAtHlDecA : Statement .ldAtHlDecA := 
  ⟨rfl, rfl, rfl, len_bounds _⟩

theorem incSp : Statement .incSp := 
  ⟨rfl, rfl, rfl, len_bounds _⟩

theorem jrC (e : Byte) : Statement (.jrC e) := 
  ⟨rfl, rfl, rfl, len_bounds _⟩

theorem ldAAtHlDec : Statement .ldAAtHlDec := 
  ⟨rfl, rfl, rfl, len_bounds _⟩

theorem incA : Statement .incA := 
  ⟨rfl, rfl, rfl, len_bounds _⟩

theorem decA : Statement .decA := 
  ⟨rfl, rfl, rfl, len_bounds _⟩

theorem ldAN (n : Byte) : Statement (.ldAN n) := 
  ⟨rfl, rfl, rfl, len_bounds _⟩

theorem ldBB : Statement .ldBB := 
  ⟨rfl, rfl, rfl, len_bounds _⟩

theorem ldBC : Statement .ldBC := 
  ⟨rfl, rfl, rfl, len_bounds _⟩

theorem ldBD : Statement .ldBD := 
  ⟨rfl, rfl, rfl, len_bounds _⟩

theorem ldBE : Statement .ldBE := 
  ⟨rfl, rfl, rfl, len_bounds _⟩

theorem ldBH : Statement .ldBH := 
  ⟨rfl, rfl, rfl, len_bounds _⟩

theorem ldBL : Statement .ldBL := 
  ⟨rfl, rfl, rfl, len_bounds _⟩

theorem ldBAtHl : Statement .ldBAtHl := 
  ⟨rfl, rfl, rfl, len_bounds _⟩

theorem ldBA : Statement .ldBA := 
  ⟨rfl, rfl, rfl, len_bounds _⟩

theorem ldCB : Statement .ldCB := 
  ⟨rfl, rfl, rfl, len_bounds _⟩

theorem ldCC : Statement .ldCC := 
  ⟨rfl, rfl, rfl, len_bounds _⟩

theorem ldCD : Statement .ldCD := 
  ⟨rfl, rfl, rfl, len_bounds _⟩

theorem ldCE : Statement .ldCE := 
  ⟨rfl, rfl, rfl, len_bounds _⟩

theorem ldCH : Statement .ldCH := 
  ⟨rfl, rfl, rfl, len_bounds _⟩

theorem ldCL : Statement .ldCL := 
  ⟨rfl, rfl, rfl, len_bounds _⟩

theorem ldCAtHl : Statement .ldCAtHl := 
  ⟨rfl, rfl, rfl, len_bounds _⟩

theorem ldCA : Statement .ldCA := 
  ⟨rfl, rfl, rfl, len_bounds _⟩

theorem ldDB : Statement .ldDB := 
  ⟨rfl, rfl, rfl, len_bounds _⟩

theorem ldDC : Statement .ldDC := 
  ⟨rfl, rfl, rfl, len_bounds _⟩

theorem ldDD : Statement .ldDD := 
  ⟨rfl, rfl, rfl, len_bounds _⟩

theorem ldDE : Statement .ldDE := 
  ⟨rfl, rfl, rfl, len_bounds _⟩

theorem ldDH : Statement .ldDH := 
  ⟨rfl, rfl, rfl, len_bounds _⟩

theorem ldDL : Statement .ldDL := 
  ⟨rfl, rfl, rfl, len_bounds _⟩

theorem ldDAtHl : Statement .ldDAtHl := 
  ⟨rfl, rfl, rfl, len_bounds _⟩

theorem ldDA : Statement .ldDA := 
  ⟨rfl, rfl, rfl, len_bounds _⟩

theorem ldEB : Statement .ldEB := 
  ⟨rfl, rfl, rfl, len_bounds _⟩

theorem ldEC : Statement .ldEC := 
  ⟨rfl, rfl, rfl, len_bounds _⟩

theorem ldED : Statement .ldED := 
  ⟨rfl, rfl, rfl, len_bounds _⟩

theorem ldEE : Statement .ldEE := 
  ⟨rfl, rfl, rfl, len_bounds _⟩

theorem ldEH : Statement .ldEH := 
  ⟨rfl, rfl, rfl, len_bounds _⟩

theorem ldEL : Statement .ldEL := 
  ⟨rfl, rfl, rfl, len_bounds _⟩

theorem ldEAtHl : Statement .ldEAtHl := 
  ⟨rfl, rfl, rfl, len_bounds _⟩

theorem ldEA : Statement .ldEA := 
  ⟨rfl, rfl, rfl, len_bounds _⟩

theorem ldHB : Statement .ldHB := 
  ⟨rfl, rfl, rfl, len_bounds _⟩

theorem ldHC : Statement .ldHC := 
  ⟨rfl, rfl, rfl, len_bounds _⟩

theorem ldHD : Statement .ldHD := 
  ⟨rfl, rfl, rfl, len_bounds _⟩

theorem ldHE : Statement .ldHE := 
  ⟨rfl, rfl, rfl, len_bounds _⟩

theorem ldHH : Statement .ldHH := 
  ⟨rfl, rfl, rfl, len_bounds _⟩

theorem ldHL : Statement .ldHL := 
  ⟨rfl, rfl, rfl, len_bounds _⟩

theorem ldHAtHl : Statement .ldHAtHl := 
  ⟨rfl, rfl, rfl, len_bounds _⟩

theorem ldHA : Statement .ldHA := 
  ⟨rfl, rfl, rfl, len_bounds _⟩

theorem ldLB : Statement .ldLB := 
  ⟨rfl, rfl, rfl, len_bounds _⟩

theorem ldLC : Statement .ldLC := 
  ⟨rfl, rfl, rfl, len_bounds _⟩

theorem ldLD : Statement .ldLD := 
  ⟨rfl, rfl, rfl, len_bounds _⟩

theorem ldLE : Statement .ldLE := 
  ⟨rfl, rfl, rfl, len_bounds _⟩

theorem ldLH : Statement .ldLH := 
  ⟨rfl, rfl, rfl, len_bounds _⟩

theorem ldLL : Statement .ldLL := 
  ⟨rfl, rfl, rfl, len_bounds _⟩

theorem ldLAtHl : Statement .ldLAtHl := 
  ⟨rfl, rfl, rfl, len_bounds _⟩

theorem ldLA : Statement .ldLA := 
  ⟨rfl, rfl, rfl, len_bounds _⟩

theorem ldAtHlB : Statement .ldAtHlB := 
  ⟨rfl, rfl, rfl, len_bounds _⟩

theorem ldAtHlC : Statement .ldAtHlC := 
  ⟨rfl, rfl, rfl, len_bounds _⟩

theorem ldAtHlD : Statement .ldAtHlD := 
  ⟨rfl, rfl, rfl, len_bounds _⟩

theorem ldAtHlE : Statement .ldAtHlE := 
  ⟨rfl, rfl, rfl, len_bounds _⟩

theorem ldAtHlH : Statement .ldAtHlH := 
  ⟨rfl, rfl, rfl, len_bounds _⟩

theorem ldAtHlL : Statement .ldAtHlL := 
  ⟨rfl, rfl, rfl, len_bounds _⟩

theorem ldAtHlA : Statement .ldAtHlA := 
  ⟨rfl, rfl, rfl, len_bounds _⟩

theorem ldAB : Statement .ldAB := 
  ⟨rfl, rfl, rfl, len_bounds _⟩

theorem ldAC : Statement .ldAC := 
  ⟨rfl, rfl, rfl, len_bounds _⟩

theorem ldAD : Statement .ldAD := 
  ⟨rfl, rfl, rfl, len_bounds _⟩

theorem ldAE : Statement .ldAE := 
  ⟨rfl, rfl, rfl, len_bounds _⟩

theorem ldAH : Statement .ldAH := 
  ⟨rfl, rfl, rfl, len_bounds _⟩

theorem ldAL : Statement .ldAL := 
  ⟨rfl, rfl, rfl, len_bounds _⟩

theorem ldAAtHl : Statement .ldAAtHl := 
  ⟨rfl, rfl, rfl, len_bounds _⟩

theorem ldAA : Statement .ldAA := 
  ⟨rfl, rfl, rfl, len_bounds _⟩

theorem xorB : Statement .xorB := 
  ⟨rfl, rfl, rfl, len_bounds _⟩

theorem xorC : Statement .xorC := 
  ⟨rfl, rfl, rfl, len_bounds _⟩

theorem xorD : Statement .xorD := 
  ⟨rfl, rfl, rfl, len_bounds _⟩

theorem xorE : Statement .xorE := 
  ⟨rfl, rfl, rfl, len_bounds _⟩

theorem xorH : Statement .xorH := 
  ⟨rfl, rfl, rfl, len_bounds _⟩

theorem xorL : Statement .xorL := 
  ⟨rfl, rfl, rfl, len_bounds _⟩

theorem xorA : Statement .xorA := 
  ⟨rfl, rfl, rfl, len_bounds _⟩

theorem popBc : Statement .popBc := 
  ⟨rfl, rfl, rfl, len_bounds _⟩

theorem jpNn (nn : Word) : Statement (.jpNn nn) := 
  ⟨rfl, rfl, rfl, len_bounds _⟩

theorem pushBc : Statement .pushBc := 
  ⟨rfl, rfl, rfl, len_bounds _⟩

theorem ret : Statement .ret := 
  ⟨rfl, rfl, rfl, len_bounds _⟩

theorem callNn (nn : Word) : Statement (.callNn nn) := 
  ⟨rfl, rfl, rfl, len_bounds _⟩

theorem popDe : Statement .popDe := 
  ⟨rfl, rfl, rfl, len_bounds _⟩

theorem pushDe : Statement .pushDe := 
  ⟨rfl, rfl, rfl, len_bounds _⟩

theorem ldhAtNA (n : Byte) : Statement (.ldhAtNA n) := 
  ⟨rfl, rfl, rfl, len_bounds _⟩

theorem popHl : Statement .popHl := 
  ⟨rfl, rfl, rfl, len_bounds _⟩

theorem ldAtCA : Statement .ldAtCA := 
  ⟨rfl, rfl, rfl, len_bounds _⟩

theorem pushHl : Statement .pushHl := 
  ⟨rfl, rfl, rfl, len_bounds _⟩

theorem ldAtNnA (nn : Word) : Statement (.ldAtNnA nn) := 
  ⟨rfl, rfl, rfl, len_bounds _⟩

theorem ldhAAtN (n : Byte) : Statement (.ldhAAtN n) := 
  ⟨rfl, rfl, rfl, len_bounds _⟩

theorem popAf : Statement .popAf := 
  ⟨rfl, rfl, rfl, len_bounds _⟩

theorem ldAAtC : Statement .ldAAtC := 
  ⟨rfl, rfl, rfl, len_bounds _⟩

theorem pushAf : Statement .pushAf := 
  ⟨rfl, rfl, rfl, len_bounds _⟩

theorem ldAAtNn (nn : Word) : Statement (.ldAAtNn nn) := 
  ⟨rfl, rfl, rfl, len_bounds _⟩

theorem cpN (n : Byte) : Statement (.cpN n) := 
  ⟨rfl, rfl, rfl, len_bounds _⟩

theorem rlB : Statement .rlB := 
  ⟨rfl, rfl, rfl, len_bounds _⟩

theorem rlC : Statement .rlC := 
  ⟨rfl, rfl, rfl, len_bounds _⟩

theorem rlD : Statement .rlD := 
  ⟨rfl, rfl, rfl, len_bounds _⟩

theorem rlE : Statement .rlE := 
  ⟨rfl, rfl, rfl, len_bounds _⟩

theorem rlH : Statement .rlH := 
  ⟨rfl, rfl, rfl, len_bounds _⟩

theorem rlL : Statement .rlL := 
  ⟨rfl, rfl, rfl, len_bounds _⟩

theorem rlA : Statement .rlA := 
  ⟨rfl, rfl, rfl, len_bounds _⟩

theorem bit0B : Statement .bit0B := 
  ⟨rfl, rfl, rfl, len_bounds _⟩

theorem bit0C : Statement .bit0C := 
  ⟨rfl, rfl, rfl, len_bounds _⟩

theorem bit0D : Statement .bit0D := 
  ⟨rfl, rfl, rfl, len_bounds _⟩

theorem bit0E : Statement .bit0E := 
  ⟨rfl, rfl, rfl, len_bounds _⟩

theorem bit0H : Statement .bit0H := 
  ⟨rfl, rfl, rfl, len_bounds _⟩

theorem bit0L : Statement .bit0L := 
  ⟨rfl, rfl, rfl, len_bounds _⟩

theorem bit0A : Statement .bit0A := 
  ⟨rfl, rfl, rfl, len_bounds _⟩

theorem bit1B : Statement .bit1B := 
  ⟨rfl, rfl, rfl, len_bounds _⟩

theorem bit1C : Statement .bit1C := 
  ⟨rfl, rfl, rfl, len_bounds _⟩

theorem bit1D : Statement .bit1D := 
  ⟨rfl, rfl, rfl, len_bounds _⟩

theorem bit1E : Statement .bit1E := 
  ⟨rfl, rfl, rfl, len_bounds _⟩

theorem bit1H : Statement .bit1H := 
  ⟨rfl, rfl, rfl, len_bounds _⟩

theorem bit1L : Statement .bit1L := 
  ⟨rfl, rfl, rfl, len_bounds _⟩

theorem bit1A : Statement .bit1A := 
  ⟨rfl, rfl, rfl, len_bounds _⟩

theorem bit2B : Statement .bit2B := 
  ⟨rfl, rfl, rfl, len_bounds _⟩

theorem bit2C : Statement .bit2C := 
  ⟨rfl, rfl, rfl, len_bounds _⟩

theorem bit2D : Statement .bit2D := 
  ⟨rfl, rfl, rfl, len_bounds _⟩

theorem bit2E : Statement .bit2E := 
  ⟨rfl, rfl, rfl, len_bounds _⟩

theorem bit2H : Statement .bit2H := 
  ⟨rfl, rfl, rfl, len_bounds _⟩

theorem bit2L : Statement .bit2L := 
  ⟨rfl, rfl, rfl, len_bounds _⟩

theorem bit2A : Statement .bit2A := 
  ⟨rfl, rfl, rfl, len_bounds _⟩

theorem bit3B : Statement .bit3B := 
  ⟨rfl, rfl, rfl, len_bounds _⟩

theorem bit3C : Statement .bit3C := 
  ⟨rfl, rfl, rfl, len_bounds _⟩

theorem bit3D : Statement .bit3D := 
  ⟨rfl, rfl, rfl, len_bounds _⟩

theorem bit3E : Statement .bit3E := 
  ⟨rfl, rfl, rfl, len_bounds _⟩

theorem bit3H : Statement .bit3H := 
  ⟨rfl, rfl, rfl, len_bounds _⟩

theorem bit3L : Statement .bit3L := 
  ⟨rfl, rfl, rfl, len_bounds _⟩

theorem bit3A : Statement .bit3A := 
  ⟨rfl, rfl, rfl, len_bounds _⟩

theorem bit4B : Statement .bit4B := 
  ⟨rfl, rfl, rfl, len_bounds _⟩

theorem bit4C : Statement .bit4C := 
  ⟨rfl, rfl, rfl, len_bounds _⟩

theorem bit4D : Statement .bit4D := 
  ⟨rfl, rfl, rfl, len_bounds _⟩

theorem bit4E : Statement .bit4E := 
  ⟨rfl, rfl, rfl, len_bounds _⟩

theorem bit4H : Statement .bit4H := 
  ⟨rfl, rfl, rfl, len_bounds _⟩

theorem bit4L : Statement .bit4L := 
  ⟨rfl, rfl, rfl, len_bounds _⟩

theorem bit4A : Statement .bit4A := 
  ⟨rfl, rfl, rfl, len_bounds _⟩

theorem bit5B : Statement .bit5B := 
  ⟨rfl, rfl, rfl, len_bounds _⟩

theorem bit5C : Statement .bit5C := 
  ⟨rfl, rfl, rfl, len_bounds _⟩

theorem bit5D : Statement .bit5D := 
  ⟨rfl, rfl, rfl, len_bounds _⟩

theorem bit5E : Statement .bit5E := 
  ⟨rfl, rfl, rfl, len_bounds _⟩

theorem bit5H : Statement .bit5H := 
  ⟨rfl, rfl, rfl, len_bounds _⟩

theorem bit5L : Statement .bit5L := 
  ⟨rfl, rfl, rfl, len_bounds _⟩

theorem bit5A : Statement .bit5A := 
  ⟨rfl, rfl, rfl, len_bounds _⟩

theorem bit6B : Statement .bit6B := 
  ⟨rfl, rfl, rfl, len_bounds _⟩

theorem bit6C : Statement .bit6C := 
  ⟨rfl, rfl, rfl, len_bounds _⟩

theorem bit6D : Statement .bit6D := 
  ⟨rfl, rfl, rfl, len_bounds _⟩

theorem bit6E : Statement .bit6E := 
  ⟨rfl, rfl, rfl, len_bounds _⟩

theorem bit6H : Statement .bit6H := 
  ⟨rfl, rfl, rfl, len_bounds _⟩

theorem bit6L : Statement .bit6L := 
  ⟨rfl, rfl, rfl, len_bounds _⟩

theorem bit6A : Statement .bit6A := 
  ⟨rfl, rfl, rfl, len_bounds _⟩

theorem bit7B : Statement .bit7B := 
  ⟨rfl, rfl, rfl, len_bounds _⟩

theorem bit7C : Statement .bit7C := 
  ⟨rfl, rfl, rfl, len_bounds _⟩

theorem bit7D : Statement .bit7D := 
  ⟨rfl, rfl, rfl, len_bounds _⟩

theorem bit7E : Statement .bit7E := 
  ⟨rfl, rfl, rfl, len_bounds _⟩

theorem bit7H : Statement .bit7H := 
  ⟨rfl, rfl, rfl, len_bounds _⟩

theorem bit7L : Statement .bit7L := 
  ⟨rfl, rfl, rfl, len_bounds _⟩

theorem bit7A : Statement .bit7A := 
  ⟨rfl, rfl, rfl, len_bounds _⟩

/-- A property of every form's instruction holds of every instruction. -/
theorem forall_of_form {P : Instr → Prop} (h : ∀ f : Form, P f.instr) (i : Instr) : P i := by
  have e : i.form.instr = i := by
    cases i <;> rfl
  exact e ▸ h i.form

end Sys2Proof.Laws.FormInverse
end

