-- ==== Sys2Proof/Laws/Decode.lean ====
section
/-! SUPPORT. The decoder case by case, and the tables' agreement with the encoder (spec/30_encoding.md R80 to R88). -/

namespace Sys2Proof

/-! ## The tables of a machine -/

@[simp] theorem Config.decided_modelledPrimary : Config.decided.modelledPrimary = Config.decidedPrimary := rfl
@[simp] theorem Config.decided_modelledCb : Config.decided.modelledCb = Config.decidedCb := rfl
@[simp] theorem Config.decided_imm16Order : Config.decided.imm16Order = .lowFirst := rfl

/-- The decided set is where the primary table has an entry, and the prefix (30_encoding R86). -/
theorem decidedPrimary_contains :
    ∀ op : Byte, Config.decidedPrimary.contains op = ((primary op).isSome || op == cbByte) := by decide +kernel

/-- The decided set is where the secondary table has an entry (30_encoding R87). -/
theorem decidedCb_contains : ∀ sub : Byte, Config.decidedCb.contains sub = (secondary sub).isSome := by decide +kernel

/-- A machine's primary table has the entry of the table where the set names the value. -/
theorem primaryAt_eq_some {c : Config} {op : Byte} {entry : Entry} :
    primaryAt c op = some entry ↔ primary op = some entry ∧ c.modelledPrimary.contains op = true :=
  Option.filter_eq_some_iff

theorem secondaryAt_eq_some {c : Config} {sub : Byte} {f : Form} :
    secondaryAt c sub = some f ↔ secondary sub = some f ∧ c.modelledCb.contains sub = true :=
  Option.filter_eq_some_iff

/-- The decided machine's primary table is the whole table. -/
@[simp] theorem primaryAt_decided (op : Byte) : primaryAt Config.decided op = primary op := by
  have h := decidedPrimary_contains op
  cases hp : primary op with
  | none => rw [primaryAt, hp]; rfl
  | some entry => exact primaryAt_eq_some.2 ⟨hp, by rw [hp] at h; simpa using h⟩

@[simp] theorem secondaryAt_decided (sub : Byte) : secondaryAt Config.decided sub = secondary sub := by
  have h := decidedCb_contains sub
  cases hs : secondary sub with
  | none => rw [secondaryAt, hs]; rfl
  | some f => exact secondaryAt_eq_some.2 ⟨hs, by rw [hs] at h; simpa using h⟩

/-! ## decode, by its first byte -/

/-- The two sizes decode alike. -/
theorem decodeAt_decided : decodeAt Config.decided = decode := rfl
theorem decodeAt_small : decodeAt Config.small = decode := rfl

theorem decodeAt_cb_nil (c : Config) : decodeAt c [cbByte] = .short 1 := rfl

theorem decodeAt_cb_cons (c : Config) (sub : Byte) (rest : List Byte) :
    decodeAt c (cbByte :: sub :: rest) =
      match secondaryAt c sub with
      | some f => .instr f.instr rest
      | none => .unimplemented sub := rfl

theorem decodeAt_of_ne (c : Config) {op : Byte} (h : op ≠ cbByte) (tail : List Byte) :
    decodeAt c (op :: tail) =
      match primaryAt c op with
      | some entry => entry.take c.imm16Order tail
      | none => .unknown op := if_neg h

theorem decode_cb_nil : decode [cbByte] = .short 1 := rfl

theorem decode_cb_cons (sub : Byte) (rest : List Byte) :
    decode (cbByte :: sub :: rest) =
      match secondary sub with
      | some f => .instr f.instr rest
      | none => .unimplemented sub := by
  rw [← decodeAt_decided, decodeAt_cb_cons, secondaryAt_decided]

theorem decode_of_ne {op : Byte} (h : op ≠ cbByte) (tail : List Byte) :
    decode (op :: tail) =
      match primary op with
      | some entry => entry.take .lowFirst tail
      | none => .unknown op := by
  rw [← decodeAt_decided, decodeAt_of_ne _ h, primaryAt_decided]
  rfl

/-- The two bytes of an operand word, assembled, are the word (R84). -/
theorem exists_imm16Bytes (order : ByteOrder) (nn : Word) :
    ∃ b1 b2, imm16Bytes order nn = [b1, b2] ∧ imm16 order b1 b2 = nn := by
  cases order
  · exact ⟨nn.low, nn.high, rfl, Word.ofBytes_high_low nn⟩
  · exact ⟨nn.high, nn.low, rfl, Word.ofBytes_high_low nn⟩

/-- The bytes of the word that two bytes assemble to are those two. -/
@[simp] theorem imm16Bytes_imm16 (order : ByteOrder) (b1 b2 : Byte) : imm16Bytes order (imm16 order b1 b2) = [b1, b2] := by
  cases order <;> simp [imm16Bytes, imm16]

/-- The bytes of a form's instruction are the form's bytes. -/
@[simp] theorem encode_instr (f : Form) : encode f.instr = f.encode := by
  rw [encode, Machine.form_instr]

/-- The same under either order of a two-byte immediate. -/
@[simp] theorem encodeAt_instr (c : Config) (f : Form) : encodeAt c f.instr = f.encodeAt c.imm16Order := by
  rw [encodeAt, Machine.form_instr]

/-! ## The tables and the encoder -/

/-- What an entry of the primary table says of the encoder. -/
def Entry.agrees (order : ByteOrder) (op : Byte) : Entry → Prop
  | .op f => f.encodeAt order = [op]
  | .n8 g => ∀ n, (g n).encodeAt order = [op, n]
  | .e8 g => ∀ e, (g e).encodeAt order = [op, e]
  | .n16 g => ∀ nn, (g nn).encodeAt order = op :: imm16Bytes order nn

/-- The same of the answer of the primary table, where no entry says nothing. -/
def Entry.agreesIfAny (order : ByteOrder) (op : Byte) : Option Entry → Prop
  | some entry => entry.agrees order op
  | none => True

/-- Every entry of the primary table is encoded with the opcode it stands at, and its operand bytes after it. -/
theorem primary_agrees {op : Byte} {entry : Entry} (order : ByteOrder) (h : primary op = some entry) :
    entry.agrees order op := by
  have key : ∀ k : Fin 256, Entry.agreesIfAny order (BitVec.ofFin (w := 8) k) (primary (BitVec.ofFin k)) := by
    intro k
    fin_cases k <;> first | exact trivial | rfl | exact fun _ => rfl
  have hk := key op.toFin
  have e : (BitVec.ofFin (w := 8) op.toFin) = op := rfl
  rw [e, h] at hk
  exact hk

/-- Every entry of the secondary table is encoded as 0xCB and the sub-opcode it stands at. -/
theorem secondary_agrees (order : ByteOrder) :
    ∀ (sub : Byte) (f : Form), secondary sub = some f → f.encodeAt order = [cbByte, sub] := by
  cases order <;> decide +revert

/-- Where a form stands in the tables: behind 0xCB at its sub-opcode, or at its opcode with an entry that takes its operand
bytes back (30_encoding R83 to R87). -/
def Form.stands (order : ByteOrder) (f : Form) : Prop :=
  (∃ sub, f.encodeAt order = [cbByte, sub] ∧ secondary sub = some f) ∨
  (∃ op args entry, f.encodeAt order = op :: args ∧ op ≠ cbByte ∧ primary op = some entry ∧
    ∀ rest, entry.take order (args ++ rest) = .instr f.instr rest)

theorem Form.stands_op {order : ByteOrder} {f : Form} {op : Byte} (h : f.encodeAt order = [op]) (hne : op ≠ cbByte)
    (hp : primary op = some (.op f)) : f.stands order :=
  Or.inr ⟨op, [], _, h, hne, hp, fun _ => rfl⟩

theorem Form.stands_n8 {order : ByteOrder} {g : Byte → Form} {n op : Byte} (h : (g n).encodeAt order = [op, n])
    (hne : op ≠ cbByte) (hp : primary op = some (.n8 g)) : (g n).stands order :=
  Or.inr ⟨op, [n], _, h, hne, hp, fun _ => rfl⟩

theorem Form.stands_e8 {order : ByteOrder} {g : Byte → Form} {e op : Byte} (h : (g e).encodeAt order = [op, e])
    (hne : op ≠ cbByte) (hp : primary op = some (.e8 g)) : (g e).stands order :=
  Or.inr ⟨op, [e], _, h, hne, hp, fun _ => rfl⟩

theorem Form.stands_n16 {order : ByteOrder} {g : Word → Form} {nn : Word} {op : Byte}
    (h : (g nn).encodeAt order = op :: imm16Bytes order nn) (hne : op ≠ cbByte) (hp : primary op = some (.n16 g)) :
    (g nn).stands order := by
  obtain ⟨b1, b2, hb, hn⟩ := exists_imm16Bytes order nn
  exact Or.inr ⟨op, [b1, b2], _, by rw [h, hb], hne, hp, fun _ => by
    simp only [List.cons_append, List.nil_append, Entry.take, hn]⟩

/-- Every form stands in the tables where the encoder puts it: the encoder and the decoder agree. -/
theorem Form.stands_all (order : ByteOrder) (f : Form) : f.stands order := by
  cases f with
  | bitBR b r =>
    refine Or.inl ⟨byteXYZ 1 (BitVec.ofFin b) r.code, rfl, ?_⟩
    revert b
    cases r <;> decide
  | rlR r => exact Or.inl ⟨_, rfl, by cases r <;> rfl⟩
  | incR r => exact stands_op rfl (by cases r <;> decide) (by cases r <;> rfl)
  | decR r => exact stands_op rfl (by cases r <;> decide) (by cases r <;> rfl)
  | xorR r => exact stands_op rfl (by cases r <;> decide) (by cases r <;> rfl)
  | incRr rr => exact stands_op rfl (by cases rr <;> decide) (by cases rr <;> rfl)
  | ldRR dst src => exact stands_op rfl (by cases dst <;> cases src <;> decide) (by cases dst <;> cases src <;> rfl)
  | ldRAtHl r => exact stands_op rfl (by cases r <;> decide) (by cases r <;> rfl)
  | ldAtHlR r => exact stands_op rfl (by cases r <;> decide) (by cases r <;> rfl)
  | push p => exact stands_op rfl (by cases p <;> decide) (by cases p <;> rfl)
  | pop p => exact stands_op rfl (by cases p <;> decide) (by cases p <;> rfl)
  | ldRN r n => exact stands_n8 rfl (by cases r <;> decide) (by cases r <;> rfl)
  | ldRrNn rr nn => exact stands_n16 rfl (by cases rr <;> decide) (by cases rr <;> rfl)
  | jrCc cc e => exact stands_e8 rfl (by cases cc <;> decide) (by cases cc <;> rfl)
  | jr e => exact stands_e8 rfl (by decide) rfl
  | cpN n => exact stands_n8 rfl (by decide) rfl
  | ldhAtNA n => exact stands_n8 rfl (by decide) rfl
  | ldhAAtN n => exact stands_n8 rfl (by decide) rfl
  | ldAtNnA nn => exact stands_n16 rfl (by decide) rfl
  | ldAAtNn nn => exact stands_n16 rfl (by decide) rfl
  | call nn => exact stands_n16 rfl (by decide) rfl
  | jp nn => exact stands_n16 rfl (by decide) rfl
  | _ => exact stands_op rfl (by decide) rfl
/-- A decoded instruction stands behind 0xCB, or is taken by its primary entry, at a value the machine models. -/
theorem decodeAt_cases {c : Config} {bytes : List Byte} {i : Instr} {rest : List Byte}
    (h : decodeAt c bytes = .instr i rest) :
    (∃ sub f, bytes = cbByte :: sub :: rest ∧ secondaryAt c sub = some f ∧ i = f.instr) ∨
    (∃ op tail entry, bytes = op :: tail ∧ op ≠ cbByte ∧ primaryAt c op = some entry ∧
      entry.take c.imm16Order tail = .instr i rest) := by
  match bytes with
  | [] => cases h
  | op :: tail =>
    by_cases hop : op = cbByte
    · subst hop
      match tail with
      | [] => cases h
      | sub :: r =>
        rw [decodeAt_cb_cons] at h
        cases hs : secondaryAt c sub with
        | none => rw [hs] at h; cases h
        | some f =>
          rw [hs] at h
          cases h
          exact Or.inl ⟨sub, f, rfl, hs, rfl⟩
    · rw [decodeAt_of_ne c hop] at h
      cases hp : primaryAt c op with
      | none => rw [hp] at h; cases h
      | some entry =>
        rw [hp] at h
        exact Or.inr ⟨op, tail, entry, rfl, hop, hp, h⟩

/-- The same in the decided machine. -/
theorem decode_cases {bytes : List Byte} {i : Instr} {rest : List Byte} (h : decode bytes = .instr i rest) :
    (∃ sub f, bytes = cbByte :: sub :: rest ∧ secondary sub = some f ∧ i = f.instr) ∨
    (∃ op tail entry, bytes = op :: tail ∧ op ≠ cbByte ∧ primary op = some entry ∧
      entry.take .lowFirst tail = .instr i rest) := by
  rw [← decodeAt_decided] at h
  simpa using decodeAt_cases h

end Sys2Proof
end

