-- ==== Sys2Proof/Tests/Slice0.lean ====
section
/-! SUPPORT. Tests of one step each, the expected results taken from spec/95_test_vectors.md (its row is named at each
test) or from the rule named; the checks of WellFormed; and for every statement with hypotheses a state that meets
them. -/

namespace Sys2Proof.Tests

open Sys2Proof Sys2Proof.Machine

/-! ## Small states -/

/-- Bytes written one after another. -/
def put (m : Memory) : List (Nat × Byte) → Memory
  | [] => m
  | (addr, v) :: rest => put (m.write addr v) rest

/-- Consecutive bytes. -/
def line : Nat → List Byte → List (Nat × Byte)
  | _, [] => []
  | addr, v :: rest => (addr, v) :: line (addr + 1) rest

/-- A state with PC, the bytes at PC, and other bytes of Memory. -/
def placed (pc : Word) (bytes : List Byte) (data : List (Nat × Byte)) (s : State) : State :=
  { s with pc := pc, mem := put (put s.mem (line pc.toNat bytes)) data }

/-- The next state of an outcome; the state itself where there is none. -/
def nextOf (s : State) : Result → State
  | .next t => t
  | .fault _ => s
  | .refused _ => s

/-- One step from `s` gives exactly the state `g s`. -/
abbrev gives (s : State) (g : State → State) : Prop := nextOf s (step s) = g s

/-- The same with `MEM_SIZE` = 65535. -/
abbrev givesSmall (s : State) (g : State → State) : Prop := nextOf s (stepAt Config.small s) = g s

/-! ## WellFormed: an ill-formed value for each check, and well-formed ones -/

/-- `MEM_SIZE` is 65536 or 65535 (00_scope R7). -/
theorem test_config_size_refused : Config.wellFormed { Config.decided with memSize := 32768 } = false := by decide

/-- F's low nibble is zero at reset (10_state R36). -/
theorem test_config_flags_refused :
    Config.wellFormed { Config.decided with resetRegs := { ResetRegs.zero with f := 0x01 } } = false := by decide

/-- PC is zero at reset (10_state R36). -/
theorem test_config_pc_refused :
    Config.wellFormed { Config.decided with resetRegs := { ResetRegs.zero with pc := 0x0100 } } = false := by decide

/-- Two flags at one bit, and a flag in the low nibble (92_eei_decisions D2). -/
theorem test_config_flag_positions_refused :
    Config.wellFormed { Config.decided with flagPos := { FlagPos.decided with n := 7 } } = false ∧
    Config.wellFormed { Config.decided with flagPos := { FlagPos.decided with c := 3 } } = false := by decide

/-- A value that no row of 30_encoding R86 or R87 has, and a set without the prefix 0xCB (00_scope R7). -/
theorem test_config_sets_refused :
    Config.wellFormed { Config.decided with modelledPrimary := [0xCB, 0x76] } = false ∧
    Config.wellFormed { Config.decided with modelledCb := [0x37] } = false ∧
    Config.wellFormed { Config.decided with modelledPrimary := [0x3C] } = false := by decide

/-- Another order of the flags, another byte order and a smaller machine (92_eei_decisions D2, D4, D5). -/
def Config.other : Config :=
  { Config.decided with
    flagPos := { z := 4, n := 5, h := 6, c := 7 }, modelledPrimary := [0x01, 0x3C, 0xCB, 0xF5], modelledCb := [0x7C]
    imm16Order := .highFirst }

theorem test_config_other_accepted : Config.wellFormed Config.other = true := by decide

theorem test_configs_accepted : Config.wellFormed Config.decided = true ∧ Config.wellFormed Config.small = true := by
  decide

/-- An image longer than Memory does not fit (70 R221); one of exactly its length does. -/
theorem test_image_refused : Config.imageFits { Config.decided with memSize := 2 } [1, 2, 3] = false := by decide

theorem test_image_accepted : Config.imageFits { Config.decided with memSize := 3 } [1, 2, 3] = true := by decide

/-- Every value an instruction's operands can hold is well-formed (30_encoding R94): its encoding is refused where a
field holds what no operand has, here register code 6 in `LD r,r'` (76) and in `BIT b,r` (CB 46). -/
theorem test_ill_formed_words_refused :
    decode [0x76] = .unknown 0x76 ∧ decode [0xCB, 0x46] = .unimplemented 0x46 ∧
    (Instr.wellFormed (.ldBcNn 0xFFFF)) = true := by decide

/-! ## Decoding: words written out bit by bit from 30_encoding R83, R86 and R87 -/

theorem test_decode_inc_dec :
    decode [0b00000100] = .instr .incB [] ∧ decode [0b00111101] = .instr .decA [] ∧
    decode [0b00010011] = .instr .incDe [] := by decide

theorem test_decode_xor_cp :
    decode [0b10101111] = .instr .xorA [] ∧ decode [0b11111110, 0x12] = .instr (.cpN 0x12) [] := by decide

theorem test_decode_bit_rotate :
    decode [0b11001011, 0b01011011] = .instr .bit3E [] ∧ decode [0b11001011, 0b00010001] = .instr .rlC [] ∧
    decode [0b00010111] = .instr .rla [] := by decide

theorem test_decode_load :
    decode [0b01000001] = .instr .ldBC [] ∧ decode [0b00111110, 0x5A] = .instr (.ldAN 0x5A) [] ∧
    decode [0b00110001, 0xFE, 0xFF] = .instr (.ldSpNn 0xFFFE) [] ∧ decode [0b01110101] = .instr .ldAtHlL [] ∧
    decode [0b00111010] = .instr .ldAAtHlDec [] ∧ decode [0b11100000, 0x47] = .instr (.ldhAtNA 0x47) [] := by decide

theorem test_decode_stack :
    decode [0b11000101] = .instr .pushBc [] ∧ decode [0b11110001] = .instr .popAf [] := by decide

theorem test_decode_control :
    decode [0b00111000, 0x80] = .instr (.jrC 0x80) [] ∧ decode [0b11001001] = .instr .ret [] ∧
    decode [0b11000011, 0x50, 0x01] = .instr (.jpNn 0x0150) [] := by decide

/-- The parameters of 00_scope R7 that the decoder reads: the order of the immediate and the two sets. -/
theorem test_decode_other :
    decodeAt Config.other [0x01, 0x34, 0x12] = .instr (.ldBcNn 0x3412) [] ∧
    encodeAt Config.other (.ldBcNn 0x3412) = [0x01, 0x34, 0x12] ∧
    decodeAt Config.other [0xCB, 0x7C] = .instr .bit7H [] ∧ decodeAt Config.other [0x3D] = .unknown 0x3D ∧
    decodeAt Config.other [0xCB, 0x7D] = .unimplemented 0x7D := by decide

/-- The opcode table's numbering: a row behind 0xCB is the number 0xCBxx; any other row counts from its opcode, and its
operand bytes are zero (log entry 14). -/
theorem test_decode_table_word :
    decodeTableWord 16 0xCB7C = some .bit7H ∧ decodeTableWord 8 0x01 = some (.ldBcNn 0) ∧
    decodeTableWord 16 0x0A20 = some (.jrNz 0x0A) ∧ decodeTableWord 24 0x1234CD = some (.callNn 0x1234) ∧
    decodeTableWord 8 0x00 = none := by decide

/-- The placed instruction is the first the machine runs after reset. -/
theorem test_with_fetch_word :
    nextOf State.reset (step (State.reset.withFetchWord 8 0x3C)) =
      { State.reset.withFetchWord 8 0x3C with a := 1, pc := 1 } ∧
    nextOf State.reset (step (State.reset.withFetchWord 16 0xCB7C)) =
      { State.reset.withFetchWord 16 0xCB7C with f := 0xA0, pc := 2 } := by decide

/-- S18, S19, S20: the renderings the source gives. -/
theorem test_render :
    render (.ldBcNn 0x1234) = "LD BC,0x1234" ∧ render .decA = "DEC A" ∧ render (.jrNz 0x0A) = "JR NZ, 10" := by decide

/-! ## One step each -/

/-! ### Increment and decrement (2.1) -/

/-- S2, 2.1 row 1. -/
theorem test_incA_wraps :
  gives (placed 0x0 [0x3C] [] { State.reset with a := 0xFF, f := 0x00 })
    fun s => { s with a := 0x00, f := 0xA0, pc := 0x1 } := by
  decide

/-- 2.1 last row. -/
theorem test_incA_pc_wraps :
  gives (placed 0xFFFF [0x3C] [] { State.reset with a := 0x00 })
    fun s => { s with a := 0x01, pc := 0x0 } := by
  decide

/-- 2.1 row 3. -/
theorem test_incB_nibble :
  gives (placed 0x0 [0x04] [] { State.reset with b := 0x0F, f := 0xD0 })
    fun s => { s with b := 0x10, f := 0x30, pc := 0x1 } := by
  decide

/-- 2.1 row 4. -/
theorem test_incL_flags :
  gives (placed 0x0 [0x2C] [] { State.reset with l := 0x00, f := 0xF0 })
    fun s => { s with l := 0x01, f := 0x10, pc := 0x1 } := by
  decide

/-- S3, 2.1. -/
theorem test_decA_wraps :
  gives (placed 0x0 [0x3D] [] { State.reset with a := 0x00, f := 0x00 })
    fun s => { s with a := 0xFF, f := 0x60, pc := 0x1 } := by
  decide

/-- 2.1. -/
theorem test_decC_zero :
  gives (placed 0x0 [0x0D] [] { State.reset with c := 0x01, f := 0x10 })
    fun s => { s with c := 0x00, f := 0xD0, pc := 0x1 } := by
  decide

/-- 2.1. -/
theorem test_decH_borrow :
  gives (placed 0x0 [0x25] [] { State.reset with h := 0x10, f := 0x00 })
    fun s => { s with h := 0x0F, f := 0x60, pc := 0x1 } := by
  decide

/-- 2.1. -/
theorem test_decE_plain :
  gives (placed 0x0 [0x1D] [] { State.reset with e := 0x2A, f := 0x80 })
    fun s => { s with e := 0x29, f := 0x40, pc := 0x1 } := by
  decide

/-- 2.1. -/
theorem test_incHl_carries :
  gives (placed 0x0 [0x23] [] { State.reset with h := 0x00, l := 0xFF, f := 0xF0 })
    fun s => { s with h := 0x01, l := 0x00, pc := 0x1 } := by
  decide

/-- 2.1, S13. -/
theorem test_incBc_wraps :
  gives (placed 0x0 [0x03] [] { State.reset with b := 0xFF, c := 0xFF, f := 0x10 })
    fun s => { s with b := 0x00, c := 0x00, pc := 0x1 } := by
  decide

/-- 2.1. -/
theorem test_incDe_carries :
  gives (placed 0x0 [0x13] [] { State.reset with d := 0x12, e := 0xFF })
    fun s => { s with d := 0x13, e := 0x00, pc := 0x1 } := by
  decide

/-- S1, 2.1. -/
theorem test_incSp_wraps :
  gives (placed 0x0 [0x33] [] { State.reset with sp := 0xFFFF, f := 0xA0 })
    fun s => { s with sp := 0x0000, pc := 0x1 } := by
  decide

/-! ### Exclusive or and compare (2.2) -/

/-- S5, 2.2. -/
theorem test_xorA_self :
  gives (placed 0x0 [0xAF] [] { State.reset with a := 0x5A, f := 0xF0 })
    fun s => { s with a := 0x00, f := 0x80, pc := 0x1 } := by
  decide

/-- S6, 2.2. -/
theorem test_xorB_nonzero :
  gives (placed 0x0 [0xA8] [] { State.reset with a := 0x5A, b := 0xA5, f := 0xF0 })
    fun s => { s with a := 0xFF, f := 0x00, pc := 0x1 } := by
  decide

/-- S6, 2.2. -/
theorem test_xorC_zero :
  gives (placed 0x0 [0xA9] [] { State.reset with a := 0x0F, c := 0x0F, f := 0x70 })
    fun s => { s with a := 0x00, f := 0x80, pc := 0x1 } := by
  decide

/-- 2.2. -/
theorem test_cp_no_nibble_borrow :
  gives (placed 0x0 [0xFE, 0x40] [] { State.reset with a := 0x3C })
    fun s => { s with f := 0x50, pc := 0x2 } := by
  decide

/-- 2.2. -/
theorem test_cp_nibble_borrow :
  gives (placed 0x0 [0xFE, 0x2F] [] { State.reset with a := 0x3C })
    fun s => { s with f := 0x60, pc := 0x2 } := by
  decide

/-! ### Bit test and rotate (2.3) -/

/-- 2.3. -/
theorem test_bit7H_set :
  gives (placed 0x0 [0xCB, 0x7C] [] { State.reset with h := 0x80, f := 0x50 })
    fun s => { s with f := 0x30, pc := 0x2 } := by
  decide

/-- 2.3. -/
theorem test_bit7H_clear :
  gives (placed 0x0 [0xCB, 0x7C] [] { State.reset with h := 0x7F, f := 0x40 })
    fun s => { s with f := 0xA0, pc := 0x2 } := by
  decide

/-- 2.3. -/
theorem test_bit0A_set :
  gives (placed 0x0 [0xCB, 0x47] [] { State.reset with a := 0x01, f := 0x10 })
    fun s => { s with f := 0x30, pc := 0x2 } := by
  decide

/-- 2.3. -/
theorem test_bit3E_clear :
  gives (placed 0x0 [0xCB, 0x5B] [] { State.reset with e := 0xF7, f := 0x00 })
    fun s => { s with f := 0xA0, pc := 0x2 } := by
  decide

/-- 2.3. -/
theorem test_rlC_out :
  gives (placed 0x0 [0xCB, 0x11] [] { State.reset with c := 0x80, f := 0x00 })
    fun s => { s with c := 0x00, f := 0x90, pc := 0x2 } := by
  decide

/-- 2.3. -/
theorem test_rlC_through :
  gives (placed 0x0 [0xCB, 0x11] [] { State.reset with c := 0x80, f := 0x10 })
    fun s => { s with c := 0x01, f := 0x10, pc := 0x2 } := by
  decide

/-- 2.3. -/
theorem test_rlB_in :
  gives (placed 0x0 [0xCB, 0x10] [] { State.reset with b := 0x55, f := 0xF0 })
    fun s => { s with b := 0xAB, f := 0x00, pc := 0x2 } := by
  decide

/-- 2.3. -/
theorem test_rlA_zero :
  gives (placed 0x0 [0xCB, 0x17] [] { State.reset with a := 0x00, f := 0x60 })
    fun s => { s with a := 0x00, f := 0x80, pc := 0x2 } := by
  decide

/-- 2.3. -/
theorem test_rla_zero :
  gives (placed 0x0 [0x17] [] { State.reset with a := 0x80, f := 0x00 })
    fun s => { s with a := 0x00, f := 0x90, pc := 0x1 } := by
  decide

/-- 2.3. -/
theorem test_rla_through :
  gives (placed 0x0 [0x17] [] { State.reset with a := 0x95, f := 0x10 })
    fun s => { s with a := 0x2B, f := 0x10, pc := 0x1 } := by
  decide

/-! ### Loads and stores (2.4) -/

/-- 2.4. -/
theorem test_ldBC_copies :
  gives (placed 0x0 [0x41] [] { State.reset with b := 0x01, c := 0x7E, f := 0xF0 })
    fun s => { s with b := 0x7E, pc := 0x1 } := by
  decide

/-- 2.4. -/
theorem test_ldAA_only_pc :
  gives (placed 0x0 [0x7F] [] { State.reset with a := 0x33 })
    fun s => { s with pc := 0x1 } := by
  decide

/-- 2.4. -/
theorem test_ldHL_copies :
  gives (placed 0x0 [0x65] [] { State.reset with h := 0x12, l := 0x34 })
    fun s => { s with h := 0x34, pc := 0x1 } := by
  decide

/-- 2.4. -/
theorem test_ldDN :
  gives (placed 0x0 [0x16, 0xAB] [] { State.reset with f := 0xF0 })
    fun s => { s with d := 0xAB, pc := 0x2 } := by
  decide

/-- 2.4, S14, S18. -/
theorem test_ldBcNn_low_first :
  gives (placed 0x0 [0x01, 0x34, 0x12] [] State.reset)
    fun s => { s with b := 0x12, c := 0x34, pc := 0x3 } := by
  decide

/-- 2.4. -/
theorem test_ldSpNn :
  gives (placed 0x0 [0x31, 0xFE, 0xFF] [] { State.reset with f := 0x50 })
    fun s => { s with sp := 0xFFFE, pc := 0x3 } := by
  decide

/-- 2.4. -/
theorem test_ldHlNn :
  gives (placed 0x0 [0x21, 0x00, 0x80] [] State.reset)
    fun s => { s with h := 0x80, l := 0x00, pc := 0x3 } := by
  decide

/-- 2.4. -/
theorem test_ldEAtHl :
  gives (placed 0x0 [0x5E] [(0xC010, 0x99)] { State.reset with h := 0xC0, l := 0x10 })
    fun s => { s with e := 0x99, pc := 0x1 } := by
  decide

/-- 2.4. -/
theorem test_ldHAtHl_old_address :
  gives (placed 0x0 [0x66] [(0xC010, 0x99)] { State.reset with h := 0xC0, l := 0x10 })
    fun s => { s with h := 0x99, pc := 0x1 } := by
  decide

/-- 2.4. -/
theorem test_ldAtHlB :
  gives (placed 0x0 [0x70] [] { State.reset with b := 0x77, h := 0xC0, l := 0x00 })
    fun s => { s with pc := 0x1, mem := put s.mem [(0xC000, 0x77)] } := by
  decide

/-- 2.4. -/
theorem test_ldAtHlL :
  gives (placed 0x0 [0x75] [] { State.reset with h := 0xC0, l := 0x05 })
    fun s => { s with pc := 0x1, mem := put s.mem [(0xC005, 0x05)] } := by
  decide

/-- 2.4. -/
theorem test_ldAAtBc :
  gives (placed 0x0 [0x0A] [(0x1234, 0x42)] { State.reset with b := 0x12, c := 0x34 })
    fun s => { s with a := 0x42, pc := 0x1 } := by
  decide

/-- 2.4. -/
theorem test_ldAAtDe :
  gives (placed 0x0 [0x1A] [(0x0104, 0xCE)] { State.reset with d := 0x01, e := 0x04 })
    fun s => { s with a := 0xCE, pc := 0x1 } := by
  decide

/-- 2.4. -/
theorem test_ldAtBcA :
  gives (placed 0x0 [0x02] [] { State.reset with a := 0x3C, b := 0xC1 })
    fun s => { s with pc := 0x1, mem := put s.mem [(0xC100, 0x3C)] } := by
  decide

/-- 2.4. -/
theorem test_ldAtDeA :
  gives (placed 0x0 [0x12] [] { State.reset with a := 0x3C, d := 0xC2 })
    fun s => { s with pc := 0x1, mem := put s.mem [(0xC200, 0x3C)] } := by
  decide

/-- 2.4. -/
theorem test_ldAtHlIncA_carries :
  gives (placed 0x0 [0x22] [] { State.reset with a := 0x11, h := 0x9F, l := 0xFF, f := 0xF0 })
    fun s => { s with h := 0xA0, l := 0x00, pc := 0x1, mem := put s.mem [(0x9FFF, 0x11)] } := by
  decide

/-- 2.4, S13. -/
theorem test_ldAtHlIncA_wraps :
  gives (placed 0x0 [0x22] [] { State.reset with a := 0x11, h := 0xFF, l := 0xFF })
    fun s => { s with h := 0x00, l := 0x00, pc := 0x1, mem := put s.mem [(0xFFFF, 0x11)] } := by
  decide

/-- 2.4. -/
theorem test_ldAAtHlInc :
  gives (placed 0x0 [0x2A] [(0x80FF, 0x56)] { State.reset with h := 0x80, l := 0xFF })
    fun s => { s with a := 0x56, h := 0x81, l := 0x00, pc := 0x1 } := by
  decide

/-- 2.4. -/
theorem test_ldAtHlDecA_wraps :
  gives (placed 0x100 [0x32] [] { State.reset with a := 0x22 })
    fun s => { s with h := 0xFF, l := 0xFF, pc := 0x101, mem := put s.mem [(0x0000, 0x22)] } := by
  decide

/-- 2.4. -/
theorem test_ldAAtHlDec :
  gives (placed 0x0 [0x3A] [(0x8000, 0x3C)] { State.reset with h := 0x80, l := 0x00 })
    fun s => { s with a := 0x3C, h := 0x7F, l := 0xFF, pc := 0x1 } := by
  decide

/-- 2.4. -/
theorem test_ldhAtNA :
  gives (placed 0x0 [0xE0, 0x47] [] { State.reset with a := 0xFC })
    fun s => { s with pc := 0x2, mem := put s.mem [(0xFF47, 0xFC)] } := by
  decide

/-- 2.4. -/
theorem test_ldhAAtN :
  gives (placed 0x0 [0xF0, 0x44] [(0xFF44, 0x90)] State.reset)
    fun s => { s with a := 0x90, pc := 0x2 } := by
  decide

/-- 2.4. -/
theorem test_ldAtCA :
  gives (placed 0x0 [0xE2] [] { State.reset with a := 0x80, c := 0x11 })
    fun s => { s with pc := 0x1, mem := put s.mem [(0xFF11, 0x80)] } := by
  decide

/-- 2.4. -/
theorem test_ldAAtC :
  gives (placed 0x0 [0xF2] [(0xFF00, 0xCF)] State.reset)
    fun s => { s with a := 0xCF, pc := 0x1 } := by
  decide

/-- 2.4. -/
theorem test_ldAtNnA :
  gives (placed 0x0 [0xEA, 0x00, 0xC0] [] { State.reset with a := 0x5A })
    fun s => { s with pc := 0x3, mem := put s.mem [(0xC000, 0x5A)] } := by
  decide

/-- 2.4. -/
theorem test_ldAAtNn :
  gives (placed 0x0 [0xFA, 0x34, 0x12] [(0x1234, 0x77)] State.reset)
    fun s => { s with a := 0x77, pc := 0x3 } := by
  decide

/-- 2.4. -/
theorem test_ldAAtNn_own_opcode :
  gives (placed 0x0 [0xFA, 0x00, 0x00] [] State.reset)
    fun s => { s with a := 0xFA, pc := 0x3 } := by
  decide

/-- 2.4. -/
theorem test_small_ldhAtNA_faults :
  givesSmall (placed 0x0 [0xE0, 0xFF] [] { State.reset with a := 0x01 })
    fun s => { s with run := (.faulted 0xFFFF) } := by
  decide

/-- 2.4. -/
theorem test_small_ldAAtHl_faults :
  givesSmall (placed 0x0 [0x7E] [] { State.reset with h := 0xFF, l := 0xFF })
    fun s => { s with run := (.faulted 0xFFFF) } := by
  decide

/-! ### The stack (2.5) -/

/-- 2.5. -/
theorem test_pushBc :
  gives (placed 0x0 [0xC5] [] { State.reset with b := 0x12, c := 0x34, sp := 0xFFFE })
    fun s => { s with sp := 0xFFFC, pc := 0x1, mem := put s.mem [(0xFFFD, 0x34), (0xFFFE, 0x12)] } := by
  decide

/-- 2.5. -/
theorem test_pushAf :
  gives (placed 0x0 [0xF5] [] { State.reset with a := 0x12, f := 0xB0, sp := 0xD000 })
    fun s => { s with sp := 0xCFFE, pc := 0x1, mem := put s.mem [(0xCFFF, 0xB0), (0xD000, 0x12)] } := by
  decide

/-- 2.5. -/
theorem test_pushBc_at_one :
  gives (placed 0x0 [0xC5] [] { State.reset with b := 0x12, c := 0x34, sp := 0x0001 })
    fun s => { s with sp := 0xFFFF, pc := 0x1, mem := put s.mem [(0x0000, 0x34), (0x0001, 0x12)] } := by
  decide

/-- 2.5 (row of BC). -/
theorem test_pushHl_faults :
  gives (placed 0x0 [0xE5] [] { State.reset with h := 0x12, l := 0x34, sp := 0x0000 })
    fun s => { s with run := (.faulted (-1)) } := by
  decide

/-- 2.5. -/
theorem test_popBc_top :
  gives (placed 0x0 [0xC1] [(0xFFFE, 0x34), (0xFFFF, 0x12)] { State.reset with sp := 0xFFFD })
    fun s => { s with b := 0x12, c := 0x34, sp := 0xFFFF, pc := 0x1 } := by
  decide

/-- 2.5. -/
theorem test_popHl :
  gives (placed 0x0 [0xE1] [(0xBFFF, 0xCD), (0xC000, 0xAB)] { State.reset with sp := 0xBFFE })
    fun s => { s with h := 0xAB, l := 0xCD, sp := 0xC000, pc := 0x1 } := by
  decide

/-- S16, 2.5. -/
theorem test_popAf_masks :
  gives (placed 0x0 [0xF1] [(0xCFFF, 0xFF), (0xD000, 0x12)] { State.reset with sp := 0xCFFE })
    fun s => { s with a := 0x12, f := 0xF0, sp := 0xD000, pc := 0x1 } := by
  decide

/-- S16, 2.5. -/
theorem test_popAf_clears :
  gives (placed 0x0 [0xF1] [(0xCFFF, 0x0F), (0xD000, 0x99)] { State.reset with sp := 0xCFFE, f := 0xF0 })
    fun s => { s with a := 0x99, f := 0x00, sp := 0xD000, pc := 0x1 } := by
  decide

/-- 2.5 (row of BC). -/
theorem test_popDe_faults :
  gives (placed 0x0 [0xD1] [] { State.reset with sp := 0xFFFE })
    fun s => { s with run := (.faulted 0x10000) } := by
  decide

/-- 2.5. -/
theorem test_small_popBc_faults :
  givesSmall (placed 0x0 [0xC1] [] { State.reset with sp := 0xFFFD })
    fun s => { s with run := (.faulted 0xFFFF) } := by
  decide

/-! ### Control transfer (2.6) -/

/-- S4, 2.6. -/
theorem test_call :
  gives (placed 0xFF0 [0xCD, 0x34, 0x12] [] { State.reset with sp := 0xFFFE })
    fun s => { s with sp := 0xFFFC, pc := 0x1234, mem := put s.mem [(0xFFFD, 0xF3), (0xFFFE, 0x0F)] } := by
  decide

/-- S4, 2.6. -/
theorem test_ret :
  gives (placed 0x1234 [0xC9] [(0xFFFD, 0xF3), (0xFFFE, 0x0F)] { State.reset with sp := 0xFFFC })
    fun s => { s with sp := 0xFFFE, pc := 0xFF3 } := by
  decide

/-- 2.6. -/
theorem test_call_wraps :
  gives (placed 0xFFFD [0xCD, 0x00, 0x20] [] { State.reset with sp := 0xD000 })
    fun s => { s with sp := 0xCFFE, pc := 0x2000, mem := put s.mem [(0xCFFF, 0x00), (0xD000, 0x00)] } := by
  decide

/-- 2.6. -/
theorem test_ret_faults :
  gives (placed 0x200 [0xC9] [] { State.reset with sp := 0xFFFE })
    fun s => { s with run := (.faulted 0x10000) } := by
  decide

/-- S7, 2.6. -/
theorem test_jrNz_taken :
  gives (placed 0x0 [0x20, 0x0A] [] { State.reset with f := 0x00 })
    fun s => { s with pc := 0xC } := by
  decide

/-- S7, 2.6. -/
theorem test_jrNz_not_taken :
  gives (placed 0x0 [0x20, 0x0A] [] { State.reset with f := 0x80 })
    fun s => { s with pc := 0x2 } := by
  decide

/-- S15, 2.6. -/
theorem test_jrZ_back :
  gives (placed 0x10 [0x28, 0xFB] [] { State.reset with f := 0x80 })
    fun s => { s with pc := 0xD } := by
  decide

/-- 2.6. -/
theorem test_jrNc_far :
  gives (placed 0x100 [0x30, 0x7F] [] { State.reset with f := 0x00 })
    fun s => { s with pc := 0x181 } := by
  decide

/-- 2.6. -/
theorem test_jrC_back :
  gives (placed 0x100 [0x38, 0x80] [] { State.reset with f := 0x10 })
    fun s => { s with pc := 0x82 } := by
  decide

/-- 2.6. -/
theorem test_jrC_not_taken :
  gives (placed 0x100 [0x38, 0x80] [] { State.reset with f := 0x00 })
    fun s => { s with pc := 0x102 } := by
  decide

/-- 2.6. -/
theorem test_jr_back_wraps :
  gives (placed 0x0 [0x18, 0x80] [] State.reset)
    fun s => { s with pc := 0xFF82 } := by
  decide

/-- 2.6. -/
theorem test_jr_forward_wraps :
  gives (placed 0xFFF0 [0x18, 0x7F] [] State.reset)
    fun s => { s with pc := 0x71 } := by
  decide

/-- 2.6. -/
theorem test_jp :
  gives (placed 0x0 [0xC3, 0x50, 0x01] [] { State.reset with f := 0xF0 })
    fun s => { s with pc := 0x150 } := by
  decide

/-! ### Decode events (2.7) -/

/-- S9, 2.7. -/
theorem test_unknown_zero :
  gives (placed 0x150 [0x00] [] State.reset)
    fun s => { s with run := (.unknownOpcode 0x00 0x0150) } := by
  decide

/-- S9, 2.7. -/
theorem test_unknown_wins_at_top :
  gives (placed 0xFFFF [0xD3] [] State.reset)
    fun s => { s with run := (.unknownOpcode 0xD3 0xFFFF) } := by
  decide

/-- 2.7. -/
theorem test_unknown_halt :
  gives (placed 0x0 [0x76] [] State.reset)
    fun s => { s with run := (.unknownOpcode 0x76 0x0000) } := by
  decide

/-- S8, 2.7. -/
theorem test_unimplemented_swap :
  gives (placed 0x150 [0xCB, 0x37] [] State.reset)
    fun s => { s with run := (.unimplementedOpcode 0x37 0x0150) } := by
  decide

/-- S8, 2.7. -/
theorem test_unimplemented_bit_at_hl :
  gives (placed 0x150 [0xCB, 0x46] [] State.reset)
    fun s => { s with run := (.unimplementedOpcode 0x46 0x0150) } := by
  decide

/-- 2.7. -/
theorem test_operand_beyond_memory :
  gives (placed 0xFFFF [0x06] [] State.reset)
    fun s => { s with run := (.faulted 0x10000) } := by
  decide

/-- 2.7. -/
theorem test_second_operand_beyond_memory :
  gives (placed 0xFFFE [0x01] [(0xFFFF, 0x34)] State.reset)
    fun s => { s with run := (.faulted 0x10000) } := by
  decide

/-- 2.7. -/
theorem test_sub_opcode_beyond_memory :
  gives (placed 0xFFFF [0xCB] [] State.reset)
    fun s => { s with run := (.faulted 0x10000) } := by
  decide

/-- S17, 2.7. -/
theorem test_small_halts :
  givesSmall (placed 0xFFFF [] [] State.reset)
    fun s => { s with run := .halted } := by
  decide

/-- 2.7: a terminal state absorbs the step. -/
theorem test_terminal_absorbs :
    gives (placed 0x0000 [0x3C] [] { State.reset with run := .unknownOpcode 0x00 0x0150 }) id := by decide

/-- The flags where `FLAG_POS` puts them: `INC A` at 0xFF sets Z and H, here bits 4 and 6 (40_inc_dec R110). -/
theorem test_inc_other_positions :
    nextOf State.reset (stepAt Config.other (placed 0 [0x3C] [] { State.reset with a := 0xFF })) =
      { placed 0 [0x3C] [] State.reset with f := 0x50, pc := 1 } := by decide

/-! ## The host surface -/

/-- 70_reset_and_hazards R222: an image is placed at 0, PC is 0. -/
theorem test_construct :
    nextOf State.reset (construct Config.decided [0x3C, 0x00, 0x05]) =
      { State.reset with mem := [(0, 0x3C), (2, 0x05)] } := by decide

/-- A construction refused: three bytes in a Memory of two. -/
theorem test_construct_refused :
    construct { Config.decided with memSize := 2 } [1, 2, 3] = .refused (.imageTooLong 3) := rfl

/-- `next` at an instruction changes nothing and gives it (60_exceptions R191). -/
theorem test_host_next :
    (hostNext Config.decided (placed 0 [0x3D] [] State.reset)).1 = placed 0 [0x3D] [] State.reset ∧
    (hostNext Config.decided (placed 0 [0x3D] [] State.reset)).2 = .decoded .decA (render .decA) := by decide

/-- Applying what `next` did not return is refused (93_implementation_defined U13). -/
theorem test_host_apply_refused :
    hostApply Config.decided exec .incB (placed 0 [0x3D] [] State.reset) = .refused .notPending := rfl

/-! ## Witnesses: states and operands that meet the hypotheses of each statement, each clause at a boundary -/

/-- A state for the witnesses: instruction bytes at PC, F = A0, SP as given. -/
def wit (pc : Word) (bytes : List Byte) (sp : Word) : State := placed pc bytes [] { State.reset with f := 0xA0, sp := sp }

theorem test_witness_EncodeOfDecode :
    decode [0x3E, 0x5A, 0x99] = .instr (.ldAN 0x5A) [0x99] ∧ decode [0xCB, 0x7F] = .instr .bit7A [] := by decide

/-- An instruction modelled and not modelled, of one byte and behind 0xCB. -/
theorem test_witness_ModelledExactlyDecode :
    (Instr.form .incA).modelled Config.other = true ∧ (Instr.form .bit7H).modelled Config.other = true ∧
    (Instr.form .decA).modelled Config.other = false ∧ (Instr.form .bit7L).modelled Config.other = false := by decide

theorem test_witness_RejectedExactly :
    (∀ i : Instr, (encode i).head? ≠ some 0xD3) ∧ ∀ i : Instr, encode i ≠ [0xCB, 0x37] := by
  constructor
  · intro i
    cases i <;> exact fun h => absurd (Option.some.inj h) (by decide)
  · intro i
    cases i <;> first | decide | exact fun h => absurd (List.cons.inj h).1 (by decide)

theorem test_witness_IncPairResult : Reg16.bc ≠ .sp ∧ Reg16.hl ≠ .sp := by decide

theorem test_witness_StoreAtHlResult : (wit 0 [0x77] 0).mem.wf := by decide

theorem test_witness_StoreAResult : (wit 0 [0x02] 0).mem.wf := by decide

theorem test_witness_StoreHlStepResult : (wit 0xFFFF [0x22] 0).mem.wf := by decide

theorem test_witness_PushResult :
    ((wit 0 [0xC5] 1).mem.wf ∧ (wit 0 [0xC5] 1).sp ≠ 0) ∧
    ((wit 0 [0xC5] 0xFFFF).mem.wf ∧ (wit 0 [0xC5] 0xFFFF).sp ≠ 0) := by decide

theorem test_witness_PopResult :
    (wit 0 [0xC1] 0).sp.toNat < 65534 ∧ (wit 0 [0xC1] 0xFFFD).sp.toNat < 65534 ∧ Pair.bc ≠ .af := by decide

theorem test_witness_StackTraps :
    (wit 0 [0xC5] 0).sp = 0 ∧ 65534 ≤ (wit 0 [0xC1] 0xFFFE).sp.toNat ∧ 65534 ≤ (wit 0 [0xC1] 0xFFFF).sp.toNat := by
  decide

theorem test_witness_PushPopInverse :
    Config.decided.memSize ≤ 65536 ∧ Config.small.memSize ≤ 65536 ∧
    ((wit 0 [0xC5] 2).mem.wf ∧ 2 ≤ (wit 0 [0xC5] 2).sp.toNat ∧ (wit 0 [0xC5] 2).sp.toNat < Config.decided.memSize) ∧
    ((wit 0 [0xC5] 0xFFFE).sp.toNat < Config.small.memSize) := by decide

/-- A pop answers at both ends of the range where it can. -/
theorem test_witness_PushPopInverse_pop :
    (∃ w t, pop Config.decided (wit 0 [0xC1] 0) = .ok (w, t)) ∧
    (∃ w t, pop Config.decided (wit 0 [0xC1] 0xFFFD) = .ok (w, t)) := ⟨⟨_, _, rfl⟩, ⟨_, _, rfl⟩⟩

theorem test_witness_PushThenPopAtOne : (wit 0 [0xC5] 1).sp = 1 := by decide

theorem test_witness_CallResult : (wit 0 [0xCD] 1).mem.wf ∧ (wit 0 [0xCD] 1).sp ≠ 0 := by decide

theorem test_witness_RetResult : (wit 0 [0xC9] 0xFFFD).sp.toNat < 65534 := by decide

theorem test_witness_CallThenRet : (wit 0 [0xCD] 2).mem.wf ∧ 2 ≤ (wit 0 [0xCD] 2).sp.toNat := by decide

/-- Each condition holds in one state and fails in another. -/
theorem test_witness_JumpResult :
    ({ State.reset with f := 0x90 } : State).holds .z = true ∧ ({ State.reset with f := 0x90 } : State).holds .c = true ∧
    ({ State.reset with f := 0x90 } : State).holds .nz = false ∧
    ({ State.reset with f := 0x90 } : State).holds .nc = false ∧
    State.reset.holds .nz = true ∧ State.reset.holds .nc = true ∧
    State.reset.holds .z = false ∧ State.reset.holds .c = false := by decide

/-- States that differ in N and H only. -/
theorem test_witness_ConditionsReadZAndC :
    ({ State.reset with f := 0x90 } : State).flag .z = ({ State.reset with f := 0xF0 } : State).flag .z ∧
    ({ State.reset with f := 0x90 } : State).flag .c = ({ State.reset with f := 0xF0 } : State).flag .c := by decide

theorem test_witness_ConditionsReadZAndC_pc :
    (∀ cc e, Instr.form .incB ≠ .jrCc cc e) ∧ (∃ t, exec .incB State.reset = .next t) ∧
    ∃ u, exec .incB { State.reset with f := 0xF0 } = .next u := by
  exact ⟨fun _ _ h => (by cases h), ⟨_, rfl⟩, ⟨_, rfl⟩⟩

theorem test_witness_FlagByteInvariant :
    (wit 0 [0x3C] 0).flagsClean ∧ ∃ t, step (wit 0 [0x3C] 0) = .next t := ⟨by decide, _, rfl⟩

/-- Addresses on both sides of both bounds, under both memory sizes. -/
theorem test_witness_MemReadRule :
    ((-1 : Int) < 0 ∨ (Config.decided.memSize : Int) ≤ -1) ∧
    ((65536 : Int) < 0 ∨ (Config.decided.memSize : Int) ≤ 65536) ∧
    ((65535 : Int) < 0 ∨ (Config.small.memSize : Int) ≤ 65535) ∧
    0 < Config.decided.memSize ∧ 65535 < Config.decided.memSize ∧ 65534 < Config.small.memSize := by decide

theorem test_witness_MemWriteRule :
    State.reset.mem.wf ∧ ((-1 : Int) < 0 ∨ (Config.decided.memSize : Int) ≤ -1) ∧ 65535 < Config.decided.memSize := by
  decide

theorem test_witness_TwoByteAccessRule :
    State.reset.mem.wf ∧ ¬ inRange Config.decided (-1) ∧ ¬ inRange Config.decided 65536 ∧
    (inRange Config.decided 65535 ∧ ¬ inRange Config.decided (65535 + 1)) ∧
    0 + 1 < Config.decided.memSize ∧ 65534 + 1 < Config.decided.memSize := by decide

theorem test_witness_PcRule :
    (∃ t, (wit 0 [0xC5] 0).run = .fetching ∧ exec .pushBc (wit 0 [0xC5] 0) = .next t ∧ t.run ≠ .fetching) ∧
    (∃ t, (wit 0 [0xC5] 1).run = .fetching ∧ exec .pushBc (wit 0 [0xC5] 1) = .next t ∧ t.run = .fetching) :=
  ⟨⟨_, rfl, rfl, by decide⟩, ⟨_, rfl, rfl, by decide⟩⟩

theorem test_witness_OnlyTheseWrite :
    (∃ t, exec .ldBC State.reset = .next t) ∧ storesForm (Instr.form .ldBC) = false ∧
    writesFlags (Instr.form .ldBC) = false ∧ writesSp (Instr.form .ldBC) = false := ⟨⟨_, rfl⟩, rfl, rfl, rfl⟩

/-- A state whose F differs in N and H only, under an instruction that writes F and one that does not. -/
theorem test_witness_OnlyPushAfReadsNAndH :
    Instr.form .incB ≠ .push .af ∧ Instr.form .pushBc ≠ .push .af ∧
    ({ State.reset with f := 0xF0 } : State).flag .z = ({ State.reset with f := 0x90 } : State).flag .z ∧
    ({ State.reset with f := 0xF0 } : State).flag .c = ({ State.reset with f := 0x90 } : State).flag .c ∧
    writesFlags (Instr.form .incB) = true ∧ writesFlags (Instr.form .pushBc) = false := by decide

theorem test_witness_OnlyPushAfReadsNAndH_next :
    ∃ t, exec .incB { State.reset with f := 0x90 } = .next t ∧ t.run = .fetching := ⟨_, rfl, rfl⟩

/-- The flags of F = 0x90 at other places: Z and C set, at bits 4 and 7. -/
theorem test_witness_FlagPositionsHidden :
    Config.decided.flagPos.wellFormed = true ∧ Config.other.flagPos.wellFormed = true ∧
    Instr.form .rla ≠ .push .af ∧ Instr.form .rla ≠ .pop .af ∧
    ∀ x ∈ [Flag.z, .n, .h, .c], ({ State.reset with f := 0x90 } : State).flagAt Config.other.flagPos x =
      ({ State.reset with f := 0x90 } : State).flagAt Config.decided.flagPos x := by decide

theorem test_witness_FlagPositionsHidden_next :
    ∃ t, execAt Config.decided .rla { State.reset with f := 0x90 } = .next t := ⟨_, rfl⟩

theorem test_witness_SnapshotShowsState :
    (wit 0 [0xC5] 1).Inv Config.small ∧ State.reset.Inv Config.small :=
  ⟨⟨by decide, by decide, by decide⟩, ⟨by decide, by decide, by decide⟩⟩

theorem test_witness_StepRunsDecoded :
    (wit 0 [0x3E, 0x5A] 0).run = .fetching ∧
    decode (fetchBytes Config.decided (wit 0 [0x3E, 0x5A] 0)) = .instr (.ldAN 0x5A) [0x00] := by decide

/-- The last two bytes of Memory. -/
theorem test_witness_StepRunsMemory :
    (wit 0xFFFE [0x3E, 0x5A] 0).run = .fetching ∧
    (wit 0xFFFE [0x3E, 0x5A] 0).pc.toNat + (encode (.ldAN 0x5A)).length ≤ 65536 ∧
    ∀ k, k < (encode (.ldAN 0x5A)).length →
      (encode (.ldAN 0x5A))[k]? = some ((wit 0xFFFE [0x3E, 0x5A] 0).byteAt ((wit 0xFFFE [0x3E, 0x5A] 0).pc.toNat + k)) := by
  decide

/-- The first two clauses' other premises are `test_witness_RejectedExactly`. -/
theorem test_witness_DecodeEvents :
    ((wit 0xFFFF [0xD3] 0).run = .fetching ∧ (wit 0xFFFF [0xD3] 0).byteAt 0xFFFF = 0xD3) ∧
    ((wit 0xFFFE [0xCB, 0x37] 0).byteAt 0xFFFE = 0xCB ∧ (wit 0xFFFE [0xCB, 0x37] 0).pc.toNat + 1 < 65536 ∧
      (wit 0xFFFE [0xCB, 0x37] 0).byteAt 0xFFFF = 0x37) ∧
    ((encode (.ldBcNn 0)).head? = some ((wit 0xFFFE [0x01] 0).byteAt 0xFFFE) ∧
      65536 < (wit 0xFFFE [0x01] 0).pc.toNat + (encode (.ldBcNn 0)).length) ∧
    ((encode .bit0B).head? = some ((wit 0xFFFF [0xCB] 0).byteAt 0xFFFF) ∧
      65536 < (wit 0xFFFF [0xCB] 0).pc.toNat + (encode .bit0B).length) := by decide

theorem test_witness_TerminalAbsorbs : ({ State.reset with run := .halted } : State).run ≠ .fetching := by decide

theorem test_witness_StepAlwaysAnswers : State.reset.run = .fetching := rfl

theorem test_witness_EventsChangeRunOnly :
    (∃ t, stepAt Config.decided State.reset = .next t ∧ t.run ≠ .fetching) ∧
    (∃ t, stepAt Config.small (wit 0xFFFF [] 0) = .next t ∧ t.run ≠ .fetching) :=
  ⟨⟨_, rfl, by decide⟩, ⟨_, rfl, by decide⟩⟩

theorem test_witness_OnlyStackFaults :
    (∃ t, exec .pushBc (wit 0 [0xC5] 0) = .next t ∧ t.run ≠ .fetching) ∧
    (∃ t, exec .ret (wit 0 [0xC9] 0xFFFE) = .next t ∧ t.run ≠ .fetching) ∧
    (∃ t, step (wit 0xFFFF [0x06] 0) = .next t ∧ t.run = .faulted 0x10000) :=
  ⟨⟨_, rfl, by decide⟩, ⟨_, rfl, by decide⟩, ⟨_, rfl, by decide⟩⟩

theorem test_witness_HaltedOnlyWhenSmall :
    (State.reset.run ≠ .halted ∧ ∃ t, step State.reset = .next t) ∧
    (∃ t, (wit 0xFFFF [] 0).run = .fetching ∧ stepAt Config.small (wit 0xFFFF [] 0) = .next t ∧ t.run = .halted) ∧
    (∃ t, stepAt Config.small (wit 0xFFFE [] 0) = .next t ∧ t.run ≠ .halted) :=
  ⟨⟨by decide, _, rfl⟩, ⟨_, rfl, rfl, by decide⟩, ⟨_, rfl, by decide⟩⟩

/-- Each clause: the address in HL, BC, DE, the offset in C, SP at each of its values, and an operand byte that would be
at 0xFFFF, the second and the third byte of its instruction. -/
theorem test_witness_SmallMemoryFaults :
    ({ State.reset with h := 0xFF, l := 0xFF } : State).pair .hl = 0xFFFF ∧
    ({ State.reset with b := 0xFF, c := 0xFF } : State).pair .bc = 0xFFFF ∧
    ({ State.reset with d := 0xFF, e := 0xFF } : State).pair .de = 0xFFFF ∧
    ({ State.reset with c := 0xFF } : State).c = 0xFF ∧ (wit 0 [0xC5] 0xFFFF).sp = 0xFFFF ∧ (wit 0 [0xC5] 0).sp = 0 ∧
    (wit 0 [0xC1] 0xFFFD).sp = 0xFFFD ∧ (wit 0 [0xC1] 0xFFFE).sp = 0xFFFE := by decide

theorem test_witness_SmallMemoryFaults_fetch :
    ((wit 0xFFFE [0x06] 0).run = .fetching ∧ (wit 0xFFFE [0x06] 0).pc.toNat < 65535 ∧
      (encode (.ldBN 0)).head? = some ((wit 0xFFFE [0x06] 0).byteAt 0xFFFE) ∧
      65535 < (wit 0xFFFE [0x06] 0).pc.toNat + (encode (.ldBN 0)).length) ∧
    ((wit 0xFFFD [0x01] 0).pc.toNat < 65535 ∧
      (encode (.ldBcNn 0)).head? = some ((wit 0xFFFD [0x01] 0).byteAt 0xFFFD) ∧
      65535 < (wit 0xFFFD [0x01] 0).pc.toNat + (encode (.ldBcNn 0)).length) := by decide

theorem test_witness_StepKeepsInv :
    (wit 0 [0xC5] 1).Inv Config.decided ∧ ∃ t, step (wit 0 [0xC5] 1) = .next t :=
  ⟨⟨by decide, by decide, by decide⟩, _, rfl⟩

theorem test_witness_ReachableInv :
    Config.small.wellFormed = true ∧ ∃ s t, Reachable Config.small s ∧ stepAt Config.small s = .next t ∧
      Reachable Config.small t :=
  ⟨rfl, _, _, .start [0x3C] _ rfl, rfl, .more _ _ (.start [0x3C] _ rfl) rfl⟩

theorem test_witness_ConstructLoadsImage :
    [0x3C, 0x00, 0x05].length ≤ Config.decided.memSize ∧ 1 < [0x3C, 0x00, 0x05].length ∧
    ({ Config.decided with memSize := 2 } : Config).memSize < [0x3C, 0x00, 0x05].length := by decide

theorem test_witness_NextThenApplyIsStep :
    (∃ i text, (hostNext Config.decided (wit 0 [0x3D] 0)).2 = .decoded i text) ∧
    (∃ r, (hostNext Config.decided State.reset).2 = .ended r) := ⟨⟨_, _, rfl⟩, ⟨_, rfl⟩⟩

/-- Also where PC wraps: the instruction is the last three bytes of Memory and stores to address 0. -/
theorem test_witness_StoreIsFetched :
    ((wit 0 [0xEA, 0x03, 0x00] 0).mem.wf ∧ (wit 0 [0xEA, 0x03, 0x00] 0).run = .fetching ∧
      fetch Config.decided (wit 0 [0xEA, 0x03, 0x00] 0) = .instr (Form.ldAtNnA 3).instr) ∧
    ((wit 0xFFFD [0xEA, 0x00, 0x00] 0).mem.wf ∧
      fetch Config.decided (wit 0xFFFD [0xEA, 0x00, 0x00] 0) = .instr (Form.ldAtNnA 0).instr ∧
      (0 : Word) = (wit 0xFFFD [0xEA, 0x00, 0x00] 0).pc + 3) := by decide

end Sys2Proof.Tests
end

/-! PROOFS of the family 10_state: the halves of a word, PC after a form said once for all forms, and the statements
they settle. -/

namespace Sys2Proof

/-! ## The halves of a word as numbers -/

theorem Word.toNat_high (w : Word) : w.high.toNat = w.toNat / 256 := by
  have := w.isLt
  simp only [Word.high, BitVec.extractLsb'_toNat, Nat.shiftRight_eq_div_pow]
  omega

theorem Word.toNat_low (w : Word) : w.low.toNat = w.toNat % 256 := by
  simp only [Word.low, BitVec.extractLsb'_toNat, Nat.shiftRight_zero]

end Sys2Proof

namespace Sys2Proof.Machine

/-! ## A completed access -/

/-- A committed access that leaves the machine fetching has completed: a fault ends the run. -/
theorem eq_ok_of_commit_eq_next {s t : State} {x : Access State} (h : commit s x = .next t) (hrun : t.run = .fetching) :
    x = .ok t := by
  cases x with
  | ok u => cases h; rfl
  | error k => cases h; exact absurd hrun (Event.runState_ne_fetching (.indexFault k))

/-- A load that completes advances PC by its length. -/
theorem loadFrom_pc {c : Config} {r : Reg8} {addr : Int} {len : Nat} {s t : State}
    (h : loadFrom c r addr len s = .ok t) : t.pc = s.pc + BitVec.ofNat 16 len := by
  rcases memRead_cases c s addr with ⟨-, hread⟩ | ⟨-, hread⟩ <;> simp only [loadFrom, hread] at h
  · cases h; simp
  · cases h

/-- A store that completes advances PC by its length. -/
theorem storeTo_pc {c : Config} {addr : Int} {v : Byte} {len : Nat} {s t : State}
    (h : storeTo c addr v len s = .ok t) : t.pc = s.pc + BitVec.ofNat 16 len := by
  rcases memWrite_cases c s addr v with ⟨-, hwrite⟩ | ⟨-, hwrite⟩ <;> simp only [storeTo, hwrite] at h
  · cases h; rfl
  · cases h

/-- Changing HL after an access leaves the access's PC. -/
theorem exists_of_thenHl_eq_ok {hl : Word} {delta : Int} {x : Access State} {t : State} (h : thenHl hl delta x = .ok t) :
    ∃ u, x = .ok u ∧ t.pc = u.pc := by
  cases x with
  | ok u => cases h; exact ⟨u, rfl, rfl⟩
  | error k => cases h

/-- The word a pop reads: its low byte at SP + 1, its high byte at SP + 2 (44_stack R171). -/
def poppedWord (s : State) : Word := Word.ofBytes (s.byteAt (s.sp.toNat + 2)) (s.byteAt (s.sp.toNat + 1))

/-- What follows a push that completes starts from the old PC. -/
theorem exists_of_push_map_eq_ok {c : Config} {v : Word} {g : State → State} {s t : State}
    (h : (push c v s).map g = .ok t) : ∃ u, t = g u ∧ u.pc = s.pc := by
  rcases push_cases c v s with ⟨-, -, hpush⟩ | ⟨-, hpush⟩ | ⟨-, -, hpush⟩ <;> rw [hpush] at h <;> cases h
  exact ⟨_, rfl, rfl⟩

/-- What follows a pop that completes starts from the popped word and the old PC. -/
theorem exists_of_pop_map_eq_ok {c : Config} {g : Word × State → State} {s t : State}
    (h : (pop c s).map g = .ok t) : ∃ u, t = g (poppedWord s, u) ∧ u.pc = s.pc := by
  have hlow : (popAddr s).toNat = s.sp.toNat + 1 := by simp only [popAddr, wordAddr]; omega
  have hhigh : (popAddr s + 1).toNat = s.sp.toNat + 2 := by simp only [popAddr, wordAddr]; omega
  rcases pop_cases c s with ⟨-, -, hpop⟩ | ⟨-, hpop⟩ | ⟨-, -, hpop⟩ <;> rw [hpop] at h <;> cases h
  exact ⟨{ s with sp := s.sp + 2 }, by rw [hlow, hhigh]; rfl, rfl⟩

/-! ## PC after a form -/

@[simp] theorem State.setReg16_pc (s : State) (rr : Reg16) (w : Word) : (s.setReg16 rr w).pc = s.pc := by
  cases rr <;> rfl

/-- PC after a form that completes (10_state R30): a transfer's target, or the form's length further. -/
def nextPc (c : Config) (s : State) : Form → Word
  | .jrCc cc e => if s.holdsAt c.flagPos cc = true then s.pc + 2 + sext16 e else s.pc + 2
  | .jr e => s.pc + 2 + sext16 e
  | .jp nn => nn
  | .call nn => nn
  | .ret => poppedWord s
  | f => s.pc + BitVec.ofNat 16 f.len

/-- An advance of a state at the old PC. -/
theorem pc_of_next_advance {s t u : State} {len : Nat} (h : (.next (u.advance len) : Result) = .next t)
    (hpc : u.pc = s.pc) : t.pc = s.pc + BitVec.ofNat 16 len := by
  cases h
  rw [State.advance_pc, hpc]

theorem pc_of_commit_loadFrom {c : Config} {r : Reg8} {addr : Int} {len : Nat} {s t : State}
    (h : commit s (loadFrom c r addr len s) = .next t) (hrun : t.run = .fetching) :
    t.pc = s.pc + BitVec.ofNat 16 len :=
  loadFrom_pc (eq_ok_of_commit_eq_next h hrun)

theorem pc_of_commit_storeTo {c : Config} {addr : Int} {v : Byte} {len : Nat} {s t : State}
    (h : commit s (storeTo c addr v len s) = .next t) (hrun : t.run = .fetching) :
    t.pc = s.pc + BitVec.ofNat 16 len :=
  storeTo_pc (eq_ok_of_commit_eq_next h hrun)

theorem loadAHl_pc {c : Config} {delta : Int} {s t : State} (h : loadAHl c delta s = .next t)
    (hrun : t.run = .fetching) : t.pc = s.pc + 1#16 := by
  obtain ⟨u, hload, hpc⟩ := exists_of_thenHl_eq_ok (eq_ok_of_commit_eq_next h hrun)
  rw [hpc, loadFrom_pc hload]

theorem storeAHl_pc {c : Config} {delta : Int} {s t : State} (h : storeAHl c delta s = .next t)
    (hrun : t.run = .fetching) : t.pc = s.pc + 1#16 := by
  obtain ⟨u, hstore, hpc⟩ := exists_of_thenHl_eq_ok (eq_ok_of_commit_eq_next h hrun)
  rw [hpc, storeTo_pc hstore]

theorem pushPair_pc {c : Config} {p : Pair} {s t : State} (h : pushPair c p s = .next t) (hrun : t.run = .fetching) :
    t.pc = s.pc + 1#16 := by
  obtain ⟨u, rfl, hpc⟩ := exists_of_push_map_eq_ok (eq_ok_of_commit_eq_next h hrun)
  rw [State.advance_pc, hpc]

theorem popPair_pc {c : Config} {p : Pair} {s t : State} (h : popPair c p s = .next t) (hrun : t.run = .fetching) :
    t.pc = s.pc + 1#16 := by
  obtain ⟨u, rfl, hpc⟩ := exists_of_pop_map_eq_ok (eq_ok_of_commit_eq_next h hrun)
  rw [State.advance_pc, State.setPair_pc, hpc]

theorem callAbs_pc {c : Config} {nn : Word} {s t : State} (h : callAbs c nn s = .next t) (hrun : t.run = .fetching) :
    t.pc = nn := by
  obtain ⟨u, rfl, -⟩ := exists_of_push_map_eq_ok (eq_ok_of_commit_eq_next h hrun)
  rfl

theorem returnSub_pc {c : Config} {s t : State} (h : returnSub c s = .next t) (hrun : t.run = .fetching) :
    t.pc = poppedWord s := by
  obtain ⟨u, rfl, -⟩ := exists_of_pop_map_eq_ok (eq_ok_of_commit_eq_next h hrun)
  rfl

theorem jumpRelIf_pc {c : Config} {cc : Cond} {e : Byte} {s t : State} (h : jumpRelIf c cc e s = .next t) :
    t.pc = if s.holdsAt c.flagPos cc = true then s.pc + 2 + sext16 e else s.pc + 2 := by
  unfold jumpRelIf at h
  split at h <;> cases h
  · rw [if_pos ‹_›]; rfl
  · rw [if_neg ‹_›]; rfl

/-- Where any form that leaves the machine fetching puts PC. -/
theorem runForm_pc {c : Config} {f : Form} {s t : State} (h : runForm c f s = .next t) (hrun : t.run = .fetching) :
    t.pc = nextPc c s f := by
  cases f with
  | incR r => exact pc_of_next_advance h (by simp)
  | decR r => exact pc_of_next_advance h (by simp)
  | incRr rr => exact pc_of_next_advance h (by simp)
  | xorR r => exact pc_of_next_advance h (by simp)
  | cpN n => exact pc_of_next_advance h (by simp)
  | bitBR b r => exact pc_of_next_advance h (by simp)
  | rla => exact pc_of_next_advance h (by simp [rotated])
  | rlR r => exact pc_of_next_advance h (by simp [rotated])
  | ldRR dst src => exact pc_of_next_advance h (by simp)
  | ldRN r n => exact pc_of_next_advance h (by simp)
  | ldRrNn rr nn => exact pc_of_next_advance h (by simp)
  | ldRAtHl r => exact pc_of_commit_loadFrom h hrun
  | ldAAtBc => exact pc_of_commit_loadFrom h hrun
  | ldAAtDe => exact pc_of_commit_loadFrom h hrun
  | ldhAAtN n => exact pc_of_commit_loadFrom h hrun
  | ldAAtC => exact pc_of_commit_loadFrom h hrun
  | ldAAtNn nn => exact pc_of_commit_loadFrom h hrun
  | ldAtHlR r => exact pc_of_commit_storeTo h hrun
  | ldAtBcA => exact pc_of_commit_storeTo h hrun
  | ldAtDeA => exact pc_of_commit_storeTo h hrun
  | ldhAtNA n => exact pc_of_commit_storeTo h hrun
  | ldAtCA => exact pc_of_commit_storeTo h hrun
  | ldAtNnA nn => exact pc_of_commit_storeTo h hrun
  | ldAAtHlInc => exact loadAHl_pc h hrun
  | ldAAtHlDec => exact loadAHl_pc h hrun
  | ldAtHlIncA => exact storeAHl_pc h hrun
  | ldAtHlDecA => exact storeAHl_pc h hrun
  | push p => exact pushPair_pc h hrun
  | pop p => exact popPair_pc h hrun
  | call nn => exact callAbs_pc h hrun
  | ret => exact returnSub_pc h hrun
  | jrCc cc e => exact jumpRelIf_pc h
  | jr e => cases h; rfl
  | jp nn => cases h; rfl

/-- A form that ends the run has faulted, and a fault keeps PC. -/
theorem runForm_pc_of_ended {c : Config} {f : Form} {s t : State} (hs : s.run = .fetching)
    (h : runForm c f s = .next t) (hrun : t.run ≠ .fetching) : t.pc = s.pc := by
  rcases runForm_answers c f s with ⟨u, hu, done⟩ | ⟨k, -, hfault⟩
  · cases hu.symm.trans h
    exact absurd (done.run.trans hs) hrun
  · cases hfault.symm.trans h
    rfl

/-- The number of an instruction's bytes is its form's length. -/
theorem length_encode (i : Instr) : (encode i).length = i.form.len := by
  unfold encode
  cases i.form <;> rfl

/-- PC some bytes further as a word is PC that many further mod 65536. -/
theorem pcPast_of_pc {s t : State} {len : Nat} (h : t.pc = s.pc + BitVec.ofNat 16 len) : pcPast len s t := by
  have hadvance : pcPast len s (s.advance len) := pcPast_advance rfl len
  unfold pcPast at hadvance ⊢
  rw [h]
  exact hadvance

/-! ## The obligations of 10_state -/

/-- Settles O39: a fault keeps PC, and a completed form's PC is `nextPc`. -/
theorem pcRule : Obligations.PcRule := by
  unfold Obligations.PcRule
  intro i s t hs h
  rw [exec_eq_runForm] at h
  refine ⟨runForm_pc_of_ended hs h, fun hrun => ?_⟩
  have hpc := runForm_pc h hrun
  rw [length_encode]
  generalize i.form = f at hpc ⊢
  cases f with
  | jrCc cc e => exact hpc
  | jr e => exact hpc
  | jp nn => exact hpc
  | call nn => exact hpc
  | ret => exact hpc
  | _ => exact pcPast_of_pc hpc

/-- Settles O34: a pair read is its two halves, and a pair write writes the two bytes of the word. -/
theorem pairViews : Obligations.PairViews := by
  unfold Obligations.PairViews
  intro s v
  exact ⟨s.toNat_pair_bc, s.toNat_pair_de, s.toNat_pair_hl, s.toNat_pair_af, rfl, rfl, rfl, rfl,
    Word.toNat_high v, Word.toNat_low v⟩

end Sys2Proof.Machine

/-! PROOFS of the family 20_memory: an access at a natural address inside Memory, and the statements it settles. -/

namespace Sys2Proof.Machine

/-! ## Which addresses exist -/

theorem inRange_natCast {c : Config} {k : Nat} (h : k < c.memSize) : inRange c (k : Int) :=
  ⟨Int.natCast_nonneg k, Int.ofNat_lt.2 h⟩

/-- The faulting addresses as the rules write them: below 0, or at `MEM_SIZE` and above (20_memory R52, R53). -/
theorem not_inRange_of_outside {c : Config} {addr : Int} (h : addr < 0 ∨ (c.memSize : Int) ≤ addr) :
    ¬ inRange c addr := by
  rintro ⟨hnonneg, hlt⟩
  omega

/-! ## The obligations of 20_memory -/

/-- Settles O37: inside Memory the write is `Memory.write` at that index, whose bytes read-after-write gives. -/
theorem memWriteRule : Obligations.MemWriteRule := by
  unfold Obligations.MemWriteRule
  intro c s addr v hwf
  refine ⟨fun hout => memWrite_of_not_inRange (not_inRange_of_outside hout), ?_⟩
  rintro k rfl hk
  have hread := Memory.read_write hwf k v
  refine ⟨s.mem.write k v, memWrite_of_inRange (inRange_natCast hk), ?_, fun q hq => ?_⟩
  · rw [hread, if_pos rfl]
  · rw [hread, if_neg hq]

/-- Settles O36: inside Memory the read answers the byte at that index, outside it faults. -/
theorem memReadRule : Obligations.MemReadRule := by
  unfold Obligations.MemReadRule
  intro c s addr
  refine ⟨fun hout => memRead_of_not_inRange (not_inRange_of_outside hout), ?_⟩
  rintro k rfl hk
  exact memRead_of_inRange (inRange_natCast hk)

end Sys2Proof.Machine

/-! PROOFS of the family 45_control: what the conditions read, PC after any form, faulting or not, as a function of the
state in which only `JR cc,e` reads F, and the statement they settle. -/

namespace Sys2Proof.Machine

/-! ## The conditions -/

/-- Equal Z and equal C make every condition hold alike (45_control R185). -/
theorem State.holdsAt_congr {p : FlagPos} {s t : State} (hz : s.flagAt p .z = t.flagAt p .z)
    (hc : s.flagAt p .c = t.flagAt p .c) (cc : Cond) : s.holdsAt p cc = t.holdsAt p cc := by
  cases cc with
  | nz => exact congrArg not hz
  | z => exact hz
  | nc => exact congrArg not hc
  | c => exact hc

/-! ## PC after a form, whether it completes or faults -/

/-- The addresses of Memory that a form reads or writes (43_load, 44_stack, 45_control). -/
def accessedAddrs (s : State) : Form → List Int
  | .ldRAtHl _ | .ldAtHlR _ | .ldAAtHlInc | .ldAAtHlDec | .ldAtHlIncA | .ldAtHlDecA => [wordAddr (s.pair .hl)]
  | .ldAAtBc | .ldAtBcA => [wordAddr (s.pair .bc)]
  | .ldAAtDe | .ldAtDeA => [wordAddr (s.pair .de)]
  | .ldhAAtN n | .ldhAtNA n => [zeroPageAddr n]
  | .ldAAtC | .ldAtCA => [zeroPageAddr s.c]
  | .ldAAtNn nn | .ldAtNnA nn => [wordAddr nn]
  | .push _ | .call _ => [pushAddr s, pushAddr s + 1]
  | .pop _ | .ret => [popAddr s, popAddr s + 1]
  | _ => []

/-- `target` if every address exists; otherwise an index fault keeps PC (60_exceptions R198). -/
def pcIfInRange (c : Config) (s : State) (addrs : List Int) (target : Word) : Word :=
  if ∀ a ∈ addrs, inRange c a then target else s.pc

@[simp] theorem pcIfInRange_nil (c : Config) (s : State) (target : Word) : pcIfInRange c s [] target = target :=
  if_pos (List.forall_mem_nil _)

/-- PC after a form: `nextPc` if it completes, the old PC if it faults. -/
def pcAfter (c : Config) (s : State) (f : Form) : Word := pcIfInRange c s (accessedAddrs s f) (nextPc c s f)

theorem pc_eq_pcIfInRange_of_load {c : Config} {r : Reg8} {addr : Int} {len : Nat} {s t : State}
    (h : commit s (loadFrom c r addr len s) = .next t) :
    t.pc = pcIfInRange c s [addr] (s.pc + BitVec.ofNat 16 len) := by
  rcases memRead_cases c s addr with ⟨hin, hread⟩ | ⟨hout, hread⟩ <;> simp only [loadFrom, hread] at h <;> cases h
  · simp [pcIfInRange, hin]
  · simp [pcIfInRange, hout]

theorem pc_eq_pcIfInRange_of_store {c : Config} {addr : Int} {v : Byte} {len : Nat} {s t : State}
    (h : commit s (storeTo c addr v len s) = .next t) :
    t.pc = pcIfInRange c s [addr] (s.pc + BitVec.ofNat 16 len) := by
  rcases memWrite_cases c s addr v with ⟨hin, hwrite⟩ | ⟨hout, hwrite⟩ <;> simp only [storeTo, hwrite] at h <;> cases h
  · simp [pcIfInRange, hin]
  · simp [pcIfInRange, hout]

/-- Changing HL after an access leaves the PC of its answer, completed or faulted. -/
theorem exists_of_commit_thenHl {hl : Word} {delta : Int} {x : Access State} {s t : State}
    (h : commit s (thenHl hl delta x) = .next t) : ∃ u, commit s x = .next u ∧ t.pc = u.pc := by
  cases x <;> cases h <;> exact ⟨_, rfl, rfl⟩

theorem loadAHl_pc_eq_pcIfInRange {c : Config} {delta : Int} {s t : State} (h : loadAHl c delta s = .next t) :
    t.pc = pcIfInRange c s [wordAddr (s.pair .hl)] (s.pc + 1#16) := by
  obtain ⟨u, hload, hpc⟩ := exists_of_commit_thenHl h
  exact hpc.trans (pc_eq_pcIfInRange_of_load hload)

theorem storeAHl_pc_eq_pcIfInRange {c : Config} {delta : Int} {s t : State} (h : storeAHl c delta s = .next t) :
    t.pc = pcIfInRange c s [wordAddr (s.pair .hl)] (s.pc + 1#16) := by
  obtain ⟨u, hstore, hpc⟩ := exists_of_commit_thenHl h
  exact hpc.trans (pc_eq_pcIfInRange_of_store hstore)

/-- A push and what follows it, which puts PC at `target`. -/
theorem pc_eq_pcIfInRange_of_push {c : Config} {v target : Word} {g : State → State} {s t : State}
    (h : commit s ((push c v s).map g) = .next t) (hg : ∀ u, u.pc = s.pc → (g u).pc = target) :
    t.pc = pcIfInRange c s [pushAddr s, pushAddr s + 1] target := by
  rcases push_cases c v s with ⟨hlow, hhigh, hpush⟩ | ⟨hlow, hpush⟩ | ⟨-, hhigh, hpush⟩ <;> rw [hpush] at h <;> cases h
  · simp [pcIfInRange, hlow, hhigh, hg]
  · simp [pcIfInRange, hlow]
  · simp [pcIfInRange, hhigh]

/-- A pop and what follows it, which puts PC at `target`. -/
theorem pc_eq_pcIfInRange_of_pop {c : Config} {target : Word} {g : Word × State → State} {s t : State}
    (h : commit s ((pop c s).map g) = .next t) (hg : ∀ u, u.pc = s.pc → (g (poppedWord s, u)).pc = target) :
    t.pc = pcIfInRange c s [popAddr s, popAddr s + 1] target := by
  rcases pop_cases c s with ⟨hlow, hhigh, hpop⟩ | ⟨hlow, hpop⟩ | ⟨-, hhigh, hpop⟩
  · have hok : (pop c s).map g = .ok t := by rw [hpop] at h ⊢; cases h; rfl
    obtain ⟨u, rfl, hu⟩ := exists_of_pop_map_eq_ok hok
    simp [pcIfInRange, hlow, hhigh, hg u hu]
  · rw [hpop] at h; cases h
    simp [pcIfInRange, hlow]
  · rw [hpop] at h; cases h
    simp [pcIfInRange, hhigh]

/-- Where any form puts PC, in any run state. -/
theorem runForm_pc_eq_pcAfter {c : Config} {f : Form} {s t : State} (h : runForm c f s = .next t) :
    t.pc = pcAfter c s f := by
  cases f with
  | incR | decR | incRr | xorR | cpN | bitBR | rla | rlR | ldRR | ldRN | ldRrNn =>
    exact (pc_of_next_advance h (by simp [rotated])).trans (pcIfInRange_nil _ _ _).symm
  | ldRAtHl | ldAAtBc | ldAAtDe | ldhAAtN | ldAAtC | ldAAtNn => exact pc_eq_pcIfInRange_of_load h
  | ldAtHlR | ldAtBcA | ldAtDeA | ldhAtNA | ldAtCA | ldAtNnA => exact pc_eq_pcIfInRange_of_store h
  | ldAAtHlInc | ldAAtHlDec => exact loadAHl_pc_eq_pcIfInRange h
  | ldAtHlIncA | ldAtHlDecA => exact storeAHl_pc_eq_pcIfInRange h
  | push p => exact pc_eq_pcIfInRange_of_push h fun u hu => by rw [State.advance_pc, hu]; rfl
  | pop p => exact pc_eq_pcIfInRange_of_pop h fun u hu => by rw [State.advance_pc, State.setPair_pc, hu]; rfl
  | call nn => exact pc_eq_pcIfInRange_of_push h fun _ _ => rfl
  | ret => exact pc_eq_pcIfInRange_of_pop h fun _ _ => rfl
  | jrCc cc e => exact (jumpRelIf_pc h).trans (pcIfInRange_nil _ _ _).symm
  | jr e => cases h; exact (pcIfInRange_nil _ _ _).symm
  | jp nn => cases h; exact (pcIfInRange_nil _ _ _).symm

/-- Neither the addresses a form accesses nor its target read F, but for the target of `JR cc,e`. -/
theorem pcAfter_withF (c : Config) (s : State) (v : Byte) {f : Form} (hf : ∀ cc e, f ≠ .jrCc cc e) :
    pcAfter c { s with f := v } f = pcAfter c s f := by
  cases f with
  | jrCc cc e => exact absurd rfl (hf cc e)
  | _ => rfl

/-! ## The obligation of 45_control -/

/-- Settles O33: a condition is its flag or the flag's complement, and PC after a form is `pcAfter`, which reads F in
`JR cc,e` alone. -/
theorem conditionsReadZAndC : Obligations.ConditionsReadZAndC := by
  unfold Obligations.ConditionsReadZAndC
  refine ⟨fun s => ⟨by simp [State.holdsAt], Iff.rfl, by simp [State.holdsAt], Iff.rfl⟩,
    fun cc s t hz hc => State.holdsAt_congr hz hc cc, ?_⟩
  intro i s t u v hi ht hu
  rw [exec_eq_runForm] at ht hu
  calc t.pc = pcAfter Config.decided s i.form := runForm_pc_eq_pcAfter ht
    _ = pcAfter Config.decided { s with f := v } i.form := (pcAfter_withF _ s v hi).symm
    _ = u.pc := (runForm_pc_eq_pcAfter hu).symm

end Sys2Proof.Machine

/-! PROOFS of the family 60_exceptions: every instruction and every step answers a next state, a jump to itself that
loops, and the statement they settle. -/

namespace Sys2Proof.Machine

/-! ## Progress -/

/-- Every instruction answers a next state: completed, or with the index fault taken. -/
theorem exec_next (i : Instr) (s : State) : ∃ t, exec i s = .next t := by
  rw [exec_eq_runForm]
  rcases runForm_answers Config.decided i.form s with ⟨t, ht, -⟩ | ⟨k, -, hfault⟩
  · exact ⟨t, ht⟩
  · exact ⟨_, hfault⟩

/-- Every step answers a next state: the same one, the instruction's, or the event's. -/
theorem step_next (s : State) : ∃ t, step s = .next t := by
  rcases stepWith_cases Config.decided exec s with ⟨-, hstep⟩ | ⟨-, i, -, hstep⟩ | ⟨-, ev, -, hstep⟩
  · exact ⟨s, hstep⟩
  · obtain ⟨t, ht⟩ := exec_next i s
    exact ⟨t, hstep.trans ht⟩
  · exact ⟨_, hstep⟩

/-- A step from a fetching state applies the fetched instruction, or changes RUN alone, to a terminal value. -/
theorem step_of_fetching {s : State} (hs : s.run = .fetching) :
    (∃ i t, fetch Config.decided s = .instr i ∧ step s = exec i s ∧ exec i s = .next t) ∨
    (∃ r, r ≠ .fetching ∧ step s = .next { s with run := r }) := by
  cases hf : fetch Config.decided s with
  | instr i =>
    obtain ⟨t, ht⟩ := exec_next i s
    exact Or.inl ⟨i, t, rfl, stepWith_of_instr hs hf, ht⟩
  | event ev => exact Or.inr ⟨ev.runState, ev.runState_ne_fetching, stepWith_of_event hs hf⟩

/-! ## An endless loop -/

/-- The displacement 0xFE is -2, the length of the jump, so the jump comes back to itself (45_control R183). -/
theorem jumpRel_minus_two (s : State) : jumpRel 0xFE s = .next s := by
  have hdisp : sext16 0xFE = (-2 : Word) := by decide
  have hpc : s.pc + BitVec.ofNat 16 2 + sext16 0xFE = s.pc := by rw [hdisp]; exact add_neg_cancel_right s.pc 2
  show Host.Outcome.next { s with pc := s.pc + BitVec.ofNat 16 2 + sext16 0xFE } = .next s
  rw [hpc]

/-- The state after reset with `JR -2` at address 0. -/
def selfJump : State := { State.reset with mem := [(0, 0x18), (1, 0xFE)] }

theorem fetch_selfJump : fetch Config.decided selfJump = .instr (.jrE 0xFE) := by decide

theorem step_selfJump : step selfJump = .next selfJump := by
  calc step selfJump = exec (.jrE 0xFE) selfJump := stepWith_of_instr rfl fetch_selfJump
    _ = .next selfJump := jumpRel_minus_two selfJump

/-! ## The obligation of 60_exceptions -/

/-- Settles O46: every step answers, a fetching state's step is its instruction's or an event's, and `selfJump` steps
to itself. -/
theorem stepAlwaysAnswers : Obligations.StepAlwaysAnswers := by
  unfold Obligations.StepAlwaysAnswers
  exact ⟨step_next, fun _ => step_of_fetching, selfJump, rfl, step_selfJump⟩

end Sys2Proof.Machine

/-! PROOFS about the encoding (30_encoding): where a form stands in the tables decides what decodes from its bytes, an
entry's answer by the number of its operand bytes, and the statements of decoding they settle. -/

namespace Sys2Proof

/-! ## An entry of the primary table -/

/-- The number of operand bytes of an entry's format (30_encoding R82). -/
def Entry.operands : Entry → Nat
  | .op _ => 0
  | .n8 _ => 1
  | .e8 _ => 1
  | .n16 _ => 2

/-- With all its operand bytes an entry takes an instruction, and leaves the bytes behind them. -/
theorem Entry.take_of_le {order : ByteOrder} {tail : List Byte} {entry : Entry} (h : entry.operands ≤ tail.length) :
    ∃ i rest, entry.take order tail = .instr i rest ∧ tail.length = entry.operands + rest.length := by
  cases entry with
  | op f => exact ⟨_, tail, rfl, (Nat.zero_add _).symm⟩
  | n8 g | e8 g =>
    match tail, h with
    | b :: rest, _ => exact ⟨_, rest, rfl, Nat.add_comm _ _⟩
  | n16 g =>
    match tail, h with
    | b1 :: b2 :: rest, _ => exact ⟨_, rest, rfl, Nat.add_comm _ 2⟩

/-- Without them the first byte missing is reported. -/
theorem Entry.take_of_lt {order : ByteOrder} {tail : List Byte} {entry : Entry} (h : tail.length < entry.operands) :
    entry.take order tail = .short (tail.length + 1) := by
  cases entry with
  | op f => exact absurd h (Nat.not_lt_zero _)
  | n8 g | e8 g =>
    match tail, h with
    | [], _ => rfl
    | _ :: _, h => simp [Entry.operands] at h
  | n16 g =>
    match tail, h with
    | [], _ => rfl
    | [_], _ => rfl
    | _ :: _ :: _, h => simp [Entry.operands] at h

theorem Entry.operands_le (entry : Entry) : entry.operands ≤ 2 := by
  cases entry <;> simp [Entry.operands]

/-- The bytes an entry takes its instruction from are the instruction's own. -/
theorem Entry.cons_eq_of_take {order : ByteOrder} {op : Byte} {entry : Entry} (hentry : entry.agrees order op)
    {tail rest : List Byte} {i : Instr} (h : entry.take order tail = .instr i rest) :
    op :: tail = i.form.encodeAt order ++ rest := by
  cases entry with
  | op f =>
    cases h
    rw [Machine.form_instr, hentry]; rfl
  | n8 g | e8 g =>
    match tail, h with
    | n :: rest, h =>
      cases h
      rw [Machine.form_instr, hentry n]; rfl
  | n16 g =>
    match tail, h with
    | b1 :: b2 :: rest, h =>
      cases h
      rw [Machine.form_instr, hentry, imm16Bytes_imm16]; rfl

/-! ## Where an instruction's bytes stand -/

/-- The opcode does not depend on the order of an operand word's bytes. -/
theorem Form.head?_encodeAt (order : ByteOrder) (f : Form) : (f.encodeAt order).head? = f.encode.head? := by
  cases f <;> rfl

/-- Behind 0xCB the modelled sub-opcodes decide whether a machine has a form (00_scope R7). -/
theorem Form.modelled_of_secondary {c : Config} {sub : Byte} {f : Form} (h : secondary sub = some f) :
    f.modelled c = c.modelledCb.contains sub := by
  have hbytes : f.encode = [cbByte, sub] := secondary_agrees _ sub f h
  simp [Form.modelled, hbytes]

/-- At any other opcode the modelled opcodes decide it. -/
theorem Form.modelled_of_head? {c : Config} {op : Byte} {f : Form} (h : f.encode.head? = some op) (hop : op ≠ cbByte) :
    f.modelled c = c.modelledPrimary.contains op := by
  obtain ⟨args, hbytes⟩ := List.head?_eq_some_iff.1 h
  cases args <;> simp [Form.modelled, hbytes, hop]

/-- Where a form stands: behind 0xCB, or at an opcode whose entry needs as many operand bytes as follow it. -/
theorem Form.stands_cases (order : ByteOrder) (f : Form) :
    (∃ sub, f.encodeAt order = [cbByte, sub] ∧ secondary sub = some f) ∨
    (∃ op args entry, f.encodeAt order = op :: args ∧ op ≠ cbByte ∧ primary op = some entry ∧
      args.length = entry.operands ∧ ∀ rest, entry.take order (args ++ rest) = .instr f.instr rest) := by
  rcases Form.stands_all order f with hsub | ⟨op, args, entry, hbytes, hop, hentry, htake⟩
  · exact Or.inl hsub
  · refine Or.inr ⟨op, args, entry, hbytes, hop, hentry, ?_, htake⟩
    have hnil := htake []
    rw [List.append_nil] at hnil
    rcases Nat.lt_or_ge args.length entry.operands with hlt | hle
    · rw [Entry.take_of_lt hlt] at hnil; cases hnil
    · obtain ⟨i, rest, h, hlen⟩ := Entry.take_of_le (order := order) hle
      cases h.symm.trans hnil
      exact hlen

/-- The same for an instruction of the decided machine. -/
theorem encode_cases (i : Instr) :
    (∃ sub, encode i = [cbByte, sub] ∧ secondary sub = some i.form) ∨
    (∃ op args entry, encode i = op :: args ∧ op ≠ cbByte ∧ primary op = some entry ∧
      args.length = entry.operands ∧ ∀ rest, entry.take .lowFirst (args ++ rest) = .instr i rest) := by
  have h := Form.stands_cases .lowFirst i.form
  rwa [Machine.instr_form] at h

/-! ## Decoding what was encoded -/

/-- A modelled instruction decodes from its bytes, whatever follows. -/
theorem decodeAt_encodeAt {c : Config} {i : Instr} (h : i.form.modelled c = true) (rest : List Byte) :
    decodeAt c (encodeAt c i ++ rest) = .instr i rest := by
  unfold encodeAt
  rcases Form.stands_cases c.imm16Order i.form with
    ⟨sub, hbytes, hsub⟩ | ⟨op, args, entry, hbytes, hop, hentry, -, htake⟩
  · rw [Form.modelled_of_secondary hsub] at h
    rw [hbytes, List.cons_append, List.cons_append, List.nil_append, decodeAt_cb_cons, secondaryAt_eq_some.2 ⟨hsub, h⟩]
    simp only [Machine.instr_form]
  · have hhead : i.form.encode.head? = some op := by rw [← Form.head?_encodeAt c.imm16Order, hbytes]; rfl
    rw [Form.modelled_of_head? hhead hop] at h
    rw [hbytes, List.cons_append, decodeAt_of_ne c hop, primaryAt_eq_some.2 ⟨hentry, h⟩]
    simp only [htake, Machine.instr_form]

/-- An instruction that a machine does not model is rejected by its sub-opcode or its opcode. -/
theorem decodeAt_encodeAt_of_not_modelled {c : Config} {i : Instr} (h : i.form.modelled c = false)
    (rest : List Byte) :
    (∃ sub, encodeAt c i = [cbByte, sub] ∧ decodeAt c (encodeAt c i ++ rest) = .unimplemented sub) ∨
    (∃ op, op ≠ cbByte ∧ (encodeAt c i).head? = some op ∧ decodeAt c (encodeAt c i ++ rest) = .unknown op) := by
  unfold encodeAt
  rcases Form.stands_cases c.imm16Order i.form with ⟨sub, hbytes, hsub⟩ | ⟨op, args, entry, hbytes, hop, hentry, -, -⟩
  · rw [Form.modelled_of_secondary hsub] at h
    have hnone : secondaryAt c sub = none := by rw [secondaryAt, hsub, Option.filter_some, h]; rfl
    refine Or.inl ⟨sub, hbytes, ?_⟩
    rw [hbytes, List.cons_append, List.cons_append, List.nil_append, decodeAt_cb_cons, hnone]
  · have hhead : (i.form.encodeAt c.imm16Order).head? = some op := by rw [hbytes]; rfl
    rw [Form.modelled_of_head? (by rwa [← Form.head?_encodeAt c.imm16Order]) hop] at h
    have hnone : primaryAt c op = none := by rw [primaryAt, hentry, Option.filter_some, h]; rfl
    refine Or.inr ⟨op, hop, hhead, ?_⟩
    rw [hbytes, List.cons_append, decodeAt_of_ne c hop, hnone]

/-- The decided sets hold every form's value. -/
theorem Form.modelled_decided (f : Form) : f.modelled Config.decided = true := by
  rcases Form.stands_cases .lowFirst f with ⟨sub, -, hsub⟩ | ⟨op, args, entry, hbytes, hop, hentry, -, -⟩
  · rw [Form.modelled_of_secondary hsub, Config.decided_modelledCb, decidedCb_contains, hsub]; rfl
  · have hhead : f.encode.head? = some op := by rw [← Form.head?_encodeAt .lowFirst, hbytes]; rfl
    rw [Form.modelled_of_head? hhead hop, Config.decided_modelledPrimary, decidedPrimary_contains, hentry]; rfl

/-- In the decided machine every instruction decodes from its bytes. -/
theorem decode_encode_append (i : Instr) (rest : List Byte) : decode (encode i ++ rest) = .instr i rest :=
  decodeAt_encodeAt (Form.modelled_decided i.form) rest

/-- What decodes to an instruction is its bytes and the rest. -/
theorem eq_encodeAt_append_of_decodeAt {c : Config} {bytes : List Byte} {i : Instr} {rest : List Byte}
    (h : decodeAt c bytes = .instr i rest) : bytes = encodeAt c i ++ rest := by
  rcases decodeAt_cases h with ⟨sub, f, rfl, hsub, rfl⟩ | ⟨op, tail, entry, rfl, -, hentry, htake⟩
  · rw [encodeAt_instr, secondary_agrees _ sub f (secondaryAt_eq_some.1 hsub).1]; rfl
  · exact Entry.cons_eq_of_take (primary_agrees _ (primaryAt_eq_some.1 hentry).1) htake

/-! ## Rejections -/

/-- An opcode but 0xCB has no entry exactly if no instruction begins with it. -/
theorem primary_eq_none_iff {op : Byte} (hop : op ≠ cbByte) :
    primary op = none ↔ ∀ i : Instr, (encode i).head? ≠ some op := by
  constructor
  · intro hnone i hi
    rcases encode_cases i with ⟨sub, hbytes, -⟩ | ⟨op', args, entry, hbytes, -, hentry, -, -⟩ <;> rw [hbytes] at hi
    · exact hop (Option.some.inj hi).symm
    · cases hi
      rw [hnone] at hentry; cases hentry
  · intro hall
    cases hentry : primary op with
    | none => rfl
    | some entry =>
      obtain ⟨i, rest, htake, -⟩ := Entry.take_of_le (order := .lowFirst) (tail := [0, 0]) entry.operands_le
      have hbytes : op :: [0, 0] = encode i ++ rest := Entry.cons_eq_of_take (primary_agrees _ hentry) htake
      refine absurd ?_ (hall i)
      rcases encode_cases i with ⟨sub, henc, -⟩ | ⟨op', args, entry', henc, -⟩ <;> rw [henc] at hbytes ⊢ <;>
        exact congrArg some (List.cons.inj hbytes).1.symm

/-- A sub-opcode has no entry exactly if no instruction is 0xCB and it. -/
theorem secondary_eq_none_iff (sub : Byte) : secondary sub = none ↔ ∀ i : Instr, encode i ≠ [cbByte, sub] := by
  constructor
  · intro hnone i hi
    rcases encode_cases i with ⟨sub', hbytes, hsub⟩ | ⟨op, args, entry, hbytes, hop, -, -, -⟩ <;> rw [hbytes] at hi
    · cases hi
      rw [hnone] at hsub; cases hsub
    · exact hop (List.cons.inj hi).1
  · intro hall
    cases hsub : secondary sub with
    | none => rfl
    | some f => exact absurd ((encode_instr f).trans (secondary_agrees _ sub f hsub)) (hall f.instr)

/-- `unknown` is answered where the primary table has no entry, whatever follows. -/
theorem decode_eq_unknown_iff (op : Byte) (tail : List Byte) :
    decode (op :: tail) = .unknown op ↔ op ≠ cbByte ∧ primary op = none := by
  by_cases hop : op = cbByte
  · refine ⟨fun h => ?_, fun h => absurd hop h.1⟩
    subst hop
    match tail with
    | [] => cases h
    | sub :: rest => rw [decode_cb_cons] at h; split at h <;> cases h
  · rw [decode_of_ne hop]
    cases hentry : primary op with
    | none => simp [hop]
    | some entry =>
      rcases Nat.lt_or_ge tail.length entry.operands with hlt | hle
      · simp [Entry.take_of_lt hlt]
      · obtain ⟨i, rest, h, -⟩ := Entry.take_of_le (order := .lowFirst) hle
        simp [h]

/-- `unimplemented` is answered where the secondary table has no entry. -/
theorem decode_eq_unimplemented_iff (sub : Byte) (rest : List Byte) :
    decode (cbByte :: sub :: rest) = .unimplemented sub ↔ secondary sub = none := by
  rw [decode_cb_cons]
  cases secondary sub <;> simp

/-- An opcode is unknown exactly outside the set of R86, a sub-opcode unimplemented exactly outside that of R87. -/
theorem decode_eq_unknown_iff_decided (op : Byte) (tail : List Byte) :
    decode (op :: tail) = .unknown op ↔ Config.decidedPrimary.contains op = false := by
  rw [decode_eq_unknown_iff, decidedPrimary_contains, Bool.or_eq_false_iff, beq_eq_false_iff_ne,
    Option.isSome_eq_false_iff, Option.isNone_iff_eq_none, and_comm]

theorem decode_eq_unimplemented_iff_decided (sub : Byte) (rest : List Byte) :
    decode (cbByte :: sub :: rest) = .unimplemented sub ↔ Config.decidedCb.contains sub = false := by
  rw [decode_eq_unimplemented_iff, decidedCb_contains, Option.isSome_eq_false_iff, Option.isNone_iff_eq_none]

/-! ## The obligations of 30_encoding -/

/-- Settles O1: the decided machine models every form, and a modelled form decodes from its bytes. -/
theorem decodeOfEncode : Obligations.DecodeOfEncode := by
  unfold Obligations.DecodeOfEncode
  exact decode_encode_append

/-- Settles O2: the entry that answered agrees with the encoder on the bytes it took. -/
theorem encodeOfDecode : Obligations.EncodeOfDecode := by
  unfold Obligations.EncodeOfDecode
  intro bytes i rest h
  exact eq_encodeAt_append_of_decodeAt h

/-- Settles O59: the modelled sets filter the tables exactly at the value where the form stands. -/
theorem modelledExactlyDecode : Obligations.ModelledExactlyDecode := by
  unfold Obligations.ModelledExactlyDecode
  exact ⟨fun c i rest => ⟨fun h => decodeAt_encodeAt h rest, fun h => decodeAt_encodeAt_of_not_modelled h rest⟩,
    fun i => Form.modelled_decided i.form⟩

/-- Settles O3: rejected where the tables have no entry, and they have one exactly where an instruction stands. -/
theorem rejectedExactly : Obligations.RejectedExactly := by
  unfold Obligations.RejectedExactly
  refine ⟨fun op tail => ?_, fun sub rest => ?_⟩
  · rw [decode_eq_unknown_iff]
    exact and_congr_right primary_eq_none_iff
  · exact (decode_eq_unimplemented_iff sub rest).trans (secondary_eq_none_iff sub)

/-- Settles O4: the rejected values are those outside the tables' sets of R86 and R87. -/
theorem rejectionCounts : Obligations.RejectionCounts := by
  unfold Obligations.RejectionCounts
  constructor
  · simp only [decode_eq_unknown_iff_decided]
    decide +kernel
  · have hsub (sub : Byte) : decode [0xCB, sub] = .unimplemented sub ↔ Config.decidedCb.contains sub = false :=
      decode_eq_unimplemented_iff_decided sub []
    simp only [hsub]
    decide +kernel

/-- Settles O5: the eleven words, one by one. -/
theorem writtenWordsDecode : Obligations.WrittenWordsDecode := by
  unfold Obligations.WrittenWordsDecode
  decide

end Sys2Proof

/-! PROOFS about the step (10_state R27, 60_exceptions, 70_reset_and_hazards): everything a step can do under any
configuration, said once; the invariant every step keeps; construction, snapshot and `next`; and the statements they
settle. -/

namespace Sys2Proof.Machine

/-! ## Everything a step can do -/

/-- A step absorbs in a terminal state, completes its instruction, or changes RUN to an event's state; Halted exactly
where PC is beyond Memory (60_exceptions R193, R197, R198). -/
theorem stepAt_cases {c : Config} {s t : State} (h : stepAt c s = .next t) :
    (s.run ≠ .fetching ∧ t = s) ∨
    (s.run = .fetching ∧ s.pc.toNat < c.memSize ∧ Completed c s t) ∨
    (s.run = .fetching ∧ ∃ ev : Event, t = takeEvent s ev ∧ (ev = .halted ↔ c.memSize ≤ s.pc.toNat)) := by
  rcases stepWith_cases c (execAt c) s with ⟨hrun, hstep⟩ | ⟨hrun, i, hf, hstep⟩ | ⟨hrun, ev, hf, hstep⟩
  · cases hstep.symm.trans h
    exact Or.inl ⟨hrun, rfl⟩
  · have hpc : s.pc.toNat < c.memSize := by
      rcases fetch_cases c s with ⟨-, hf'⟩ | ⟨hpc, -⟩
      · rw [hf'] at hf; cases hf
      · exact hpc
    have hexec : runForm c i.form s = .next t := hstep.symm.trans h
    rcases runForm_answers c i.form s with ⟨u, hu, done⟩ | ⟨k, -, hfault⟩
    · cases hu.symm.trans hexec
      exact Or.inr (Or.inl ⟨hrun, hpc, done⟩)
    · cases hfault.symm.trans hexec
      exact Or.inr (Or.inr ⟨hrun, .indexFault k, rfl, by simp; omega⟩)
  · cases hstep.symm.trans h
    refine Or.inr (Or.inr ⟨hrun, ev, rfl, ?_⟩)
    rcases fetch_cases c s with
      ⟨hpc, hf'⟩ | ⟨hpc, ⟨i, rest, -, hf'⟩ | ⟨op, -, hf'⟩ | ⟨sub, -, hf'⟩ | ⟨k, -, hf'⟩⟩ <;>
      rw [hf'] at hf <;> cases hf <;> simp <;> omega

/-! ## The invariant -/

/-- A masked byte has its low nibble zero. -/
theorem low_nibble_of_masked {v : Byte} (h : v &&& 0xF0 = v) : v &&& 0x0F = 0 := by
  rw [← h]
  exact and_F0_low v

/-- Any step leaves F or masks it (10_state R27). -/
theorem stepAt_f {c : Config} {s t : State} (h : stepAt c s = .next t) : t.f = s.f ∨ t.flagsClean := by
  rcases stepAt_cases h with ⟨-, rfl⟩ | ⟨-, -, done⟩ | ⟨-, ev, rfl, -⟩
  · exact Or.inl rfl
  · exact done.flags.imp_right low_nibble_of_masked
  · exact Or.inl rfl

theorem stepAt_flagsClean {c : Config} {s t : State} (hs : s.flagsClean) (h : stepAt c s = .next t) :
    t.flagsClean := by
  rcases stepAt_f h with hf | hclean
  · rwa [State.flagsClean, hf]
  · exact hclean

/-- Memory after a completed form: the same, or written at one or two addresses that exist. -/
theorem Completed.mem_inv {c : Config} {s t : State} (done : Completed c s t) (hwf : s.mem.wf)
    (hwithin : Memory.within c.memSize s.mem) : t.mem.wf ∧ Memory.within c.memSize t.mem := by
  rcases done.mem with hmem | ⟨a, v, ha, hmem⟩ | ⟨a, v, b, w, ha, hb, hmem⟩ <;> rw [hmem]
  · exact ⟨hwf, hwithin⟩
  · exact ⟨Memory.wf_write hwf a v, Memory.within_write hwithin ha v⟩
  · exact ⟨Memory.wf_write (Memory.wf_write hwf a v) b w, Memory.within_write (Memory.within_write hwithin ha v) hb w⟩

/-- Every step under any configuration keeps the invariant. -/
theorem stepAt_inv {c : Config} {s t : State} (hs : s.Inv c) (h : stepAt c s = .next t) : t.Inv c := by
  obtain ⟨hclean, hwf, hwithin⟩ := hs
  refine ⟨stepAt_flagsClean hclean h, ?_⟩
  rcases stepAt_cases h with ⟨-, rfl⟩ | ⟨-, -, done⟩ | ⟨-, ev, rfl, -⟩
  · exact ⟨hwf, hwithin⟩
  · exact done.mem_inv hwf hwithin
  · exact ⟨hwf, hwithin⟩

/-- Construction from an image that fits, with F clean at reset, gives the invariant. -/
theorem construct_inv {c : Config} {image : List Byte} {s : State} (hf : c.resetRegs.f &&& 0x0F = 0)
    (h : construct c image = .next s) : s.Inv c := by
  unfold construct at h
  split at h
  next hfits =>
    cases h
    have hlen : image.length ≤ c.memSize := of_decide_eq_true hfits
    refine ⟨hf, Memory.wf_image 0 image, fun x hx => ?_⟩
    have := Memory.mem_image hx
    omega
  next => cases h

/-- F's low nibble at reset under a configuration that the spec admits (10_state R36). -/
theorem resetRegs_f_of_wellFormed {c : Config} (h : c.wellFormed = true) : c.resetRegs.f &&& 0x0F = 0 := by
  simp only [Config.wellFormed, Bool.and_eq_true, beq_iff_eq] at h
  exact h.1.2

/-- The invariant holds in every reachable state. -/
theorem inv_of_reachable {c : Config} {s : State} (hc : c.wellFormed = true) (h : Reachable c s) : s.Inv c := by
  induction h with
  | start image s h => exact construct_inv (resetRegs_f_of_wellFormed hc) h
  | more s t _ hstep ih => exact stepAt_inv ih hstep

/-! ## The obligations about the invariant -/

/-- Settles O51: the decided machine's case of `stepAt_inv`. -/
theorem stepKeepsInv : Obligations.StepKeepsInv := by
  unfold Obligations.StepKeepsInv
  intro s t hs h
  rw [step_eq_stepAt] at h
  exact stepAt_inv hs h

/-- Settles O52, by induction on the run. -/
theorem reachableInv : Obligations.ReachableInv := by
  unfold Obligations.ReachableInv
  intro c s hc h
  exact inv_of_reachable hc h

/-- Settles O53: F is zero and no byte is listed. -/
theorem resetInv : Obligations.ResetInv := by
  unfold Obligations.ResetInv
  exact construct_inv (c := Config.decided) (image := []) (by decide) rfl

/-- Settles O35: a step leaves F or masks it, which keeps a clean F clean. -/
theorem flagByteInvariant : Obligations.FlagByteInvariant := by
  unfold Obligations.FlagByteInvariant
  refine ⟨by decide, fun s t hs h => ?_, fun s t h => ?_⟩ <;> rw [step_eq_stepAt] at h
  · exact stepAt_flagsClean hs h
  · exact stepAt_f h

/-! ## The obligations about how a run ends -/

/-- Settles O45: `stepWith` absorbs in a terminal state. -/
theorem terminalAbsorbs : Obligations.TerminalAbsorbs := by
  unfold Obligations.TerminalAbsorbs
  intro c s hs
  exact ⟨stepWith_of_ended hs, stepWith_of_ended hs⟩

/-- Settles O47: a completed form leaves RUN, and an event changes nothing else. -/
theorem eventsChangeRunOnly : Obligations.EventsChangeRunOnly := by
  unfold Obligations.EventsChangeRunOnly
  intro c s t hs h hrun
  rcases stepAt_cases h with ⟨hended, -⟩ | ⟨-, -, done⟩ | ⟨-, ev, rfl, -⟩
  · exact absurd hs hended
  · exact absurd (done.run.trans hs) hrun
  · rfl

/-- A step enters Halted exactly where PC is beyond Memory. -/
theorem stepAt_run_eq_halted_iff {c : Config} {s t : State} (hs : s.run = .fetching) (h : stepAt c s = .next t) :
    t.run = .halted ↔ c.memSize ≤ s.pc.toNat := by
  rcases stepAt_cases h with ⟨hended, -⟩ | ⟨-, hpc, done⟩ | ⟨-, ev, rfl, hev⟩
  · exact absurd hs hended
  · simp [done.run, hs, hpc]
  · rw [← hev]
    cases ev <;> simp [Event.runState]

/-- Settles O49: PC is always inside 65536 bytes, and outside 65535 bytes at 0xFFFF alone. -/
theorem haltedOnlyWhenSmall : Obligations.HaltedOnlyWhenSmall := by
  unfold Obligations.HaltedOnlyWhenSmall
  refine ⟨fun s t hs h => ?_, fun s t hs h => ?_⟩
  · rw [step_eq_stepAt] at h
    by_cases hrun : s.run = .fetching
    · rw [Ne, stepAt_run_eq_halted_iff hrun h, decided_memSize, Nat.not_le]
      exact s.pc.isLt
    · rw [stepAt, stepWith_of_ended hrun] at h
      cases h
      exact hs
  · rw [stepAt_run_eq_halted_iff hs h, small_memSize, ← BitVec.toNat_inj]
    have := s.pc.isLt
    show 65535 ≤ s.pc.toNat ↔ s.pc.toNat = 65535
    omega

/-! ## Construction, snapshot and next -/

/-- Settles O54: the image's layout is `Memory.read_image` from address 0. -/
theorem constructLoadsImage : Obligations.ConstructLoadsImage := by
  unfold Obligations.ConstructLoadsImage
  intro c image
  refine ⟨fun hfits =>
      ⟨_, if_pos (decide_eq_true hfits), rfl, rfl, rfl, rfl, rfl, rfl, rfl, rfl, rfl, rfl, rfl, ?_, ?_⟩,
    fun hlong => if_neg (by simpa [Config.imageFits] using hlong)⟩
  · intro k hk
    have hread := Memory.read_image 0 image k
    rw [Nat.zero_add, List.getElem?_eq_getElem hk] at hread
    rw [List.getElem?_eq_getElem hk]
    exact congrArg some hread
  · intro k hk
    have hread := Memory.read_image 0 image k
    rw [Nat.zero_add, List.getElem?_eq_none hk] at hread
    exact hread

theorem fetch_reset : fetch Config.decided State.reset = .event (.unknownOpcode 0x00 0x0000) := by decide

/-- Settles O55: every field at reset, and the byte 0x00 at address 0 that no instruction begins with. -/
theorem resetState : Obligations.ResetState := by
  unfold Obligations.ResetState
  exact ⟨rfl, fun r => by cases r <;> rfl, rfl, rfl, rfl, rfl, fun _ => rfl, stepWith_of_event rfl fetch_reset⟩

/-- Equal snapshots read alike at every address that exists. -/
theorem read_eq_of_snapshot_eq {c : Config} {s t : State} (h : snapshot c s = snapshot c t) {addr : Nat}
    (haddr : addr < c.memSize) : s.mem.read addr = t.mem.read addr := by
  have hbytes : (List.range c.memSize).map s.mem.read = (List.range c.memSize).map t.mem.read :=
    congrArg Snapshot.bytes h
  exact List.map_inj_left.1 hbytes addr (List.mem_range.2 haddr)

/-- Settles O58: beyond Memory both read as unlisted, and canonical memories that read alike are equal. -/
theorem snapshotShowsState : Obligations.SnapshotShowsState := by
  unfold Obligations.SnapshotShowsState
  rintro c s t ⟨-, hs, hsize⟩ ⟨-, ht, htsize⟩ h
  have hmem : s.mem = t.mem := Memory.eq_of_read hs ht fun addr => by
    rcases Nat.lt_or_ge addr c.memSize with haddr | haddr
    · exact read_eq_of_snapshot_eq h haddr
    · rw [Memory.read_of_within hsize haddr, Memory.read_of_within htsize haddr]
  simp only [snapshot, Snapshot.mk.injEq, List.cons.injEq] at h
  obtain ⟨⟨ha, hb, hc, hd, he, hh, hl, hf, -⟩, hsp, hpc, hrun, -⟩ := h
  cases s
  simp_all

/-- `next()` where RUN is terminal. -/
theorem hostNext_of_ended {c : Config} {s : State} (h : s.run ≠ .fetching) : hostNext c s = (s, .ended s.run) := by
  unfold hostNext
  cases hrun : s.run with
  | fetching => exact absurd hrun h
  | unknownOpcode | unimplementedOpcode | halted | faulted => rfl

/-- `next()` where an instruction is fetched. -/
theorem hostNext_of_instr {c : Config} {s : State} {i : Instr} (h : s.run = .fetching) (hf : fetch c s = .instr i) :
    hostNext c s = (s, .decoded i (render i)) := by
  simp only [hostNext, h, hf]

/-- `next()` where an event is. -/
theorem hostNext_of_event {c : Config} {s : State} {ev : Event} (h : s.run = .fetching) (hf : fetch c s = .event ev) :
    hostNext c s = (takeEvent s ev, .ended ev.runState) := by
  simp only [hostNext, h, hf]

/-- Settles O56, by what is fetched: in each of the three cases `next()` and the step are known. -/
theorem nextThenApplyIsStep : Obligations.NextThenApplyIsStep := by
  unfold Obligations.NextThenApplyIsStep
  intro s
  rcases stepWith_cases Config.decided exec s with ⟨hrun, hstep⟩ | ⟨hrun, i, hf, hstep⟩ | ⟨hrun, ev, hf, hstep⟩
  · rw [hostNext_of_ended hrun]
    refine ⟨rfl, hostNext_of_ended hrun, fun i text h => (by cases h), fun r h => ?_⟩
    cases h
    exact ⟨hrun, hstep, rfl⟩
  · rw [hostNext_of_instr hrun hf]
    refine ⟨rfl, hostNext_of_instr hrun hf, fun i' text h => ?_, fun r h => (by cases h)⟩
    cases h
    exact ⟨rfl, rfl, (if_pos ⟨hrun, hf⟩).trans hstep.symm⟩
  · rw [hostNext_of_event hrun hf]
    refine ⟨rfl, hostNext_of_ended ev.runState_ne_fetching, fun i text h => (by cases h), fun r h => ?_⟩
    cases h
    exact ⟨ev.runState_ne_fetching, hstep, rfl⟩

end Sys2Proof.Machine

/-! PROOFS about the forms on registers (40_inc_dec, 41_xor_cp, 42_bit_rotate, 43_load R140 to R142): the frame of a
register update that also writes the flags, once for all, then each form's result. -/

namespace Sys2Proof.Machine

/-! ## Frames -/

/-- A change that left RUN, SP, PC, Memory and the registers not named, then all flags written and PC advanced. -/
theorem frame_setFlags_advance {but : List Reg8} {s u : State} (p : FlagPos) (z n h c : Bool) (len : Nat)
    (hregs : regsKept but s u) (hmem : u.mem = s.mem) (hsp : u.sp = s.sp) (hrun : u.run = s.run) (hpc : u.pc = s.pc) :
    let t := (u.setFlags p z n h c).advance len
    regsKept but s t ∧ bytesKept [] s t ∧ t.sp = s.sp ∧ t.run = s.run ∧ pcPast len s t :=
  ⟨fun q hq => by rw [State.advance_reg, State.setFlags_reg, hregs q hq], bytesKept_of_mem hmem [], hsp, hrun,
    pcPast_advance hpc len⟩

/-- The frame of one register written with the flags. -/
theorem frame_setReg_setFlags_advance (s : State) (r : Reg8) (v : Byte) (p : FlagPos) (z n h c : Bool) (len : Nat) :
    let t := ((s.setReg r v).setFlags p z n h c).advance len
    regsKept [r] s t ∧ bytesKept [] s t ∧ t.sp = s.sp ∧ t.run = s.run ∧ pcPast len s t :=
  frame_setFlags_advance p z n h c len (regsKept_setReg s r v) (by simp) (by simp) (by simp) (by simp)

theorem regsKept_refl (but : List Reg8) (s : State) : regsKept but s s := fun _ _ => rfl

theorem regsKept_trans {but but' : List Reg8} {s t u : State} (hst : regsKept but s t) (htu : regsKept but' t u) :
    regsKept (but ++ but') s u := fun q hq => by
  rw [List.mem_append, not_or] at hq
  rw [htu q hq.2, hst q hq.1]

/-- A register loaded and PC advanced, and nothing else. -/
theorem loaded_setReg_advance (s : State) (r : Reg8) (v : Byte) (len : Nat) :
    loaded r v len s ((s.setReg r v).advance len) :=
  ⟨by simp, fun q hq => by rw [State.advance_reg, regsKept_setReg s r v q hq], bytesKept_of_mem (by simp) [],
    ⟨by simp, by simp, by simp⟩, pcPast_advance (by simp) len⟩

/-! ## Sixteen-bit operands -/

@[simp] theorem State.setReg16_f (s : State) (rr : Reg16) (w : Word) : (s.setReg16 rr w).f = s.f := by
  cases rr <;> rfl
@[simp] theorem State.setReg16_run (s : State) (rr : Reg16) (w : Word) : (s.setReg16 rr w).run = s.run := by
  cases rr <;> rfl
@[simp] theorem State.setReg16_mem (s : State) (rr : Reg16) (w : Word) : (s.setReg16 rr w).mem = s.mem := by
  cases rr <;> rfl

theorem State.setReg16_sp_of_ne (s : State) {rr : Reg16} (w : Word) (h : rr ≠ .sp) : (s.setReg16 rr w).sp = s.sp := by
  cases rr with
  | sp => exact absurd rfl h
  | bc | de | hl => rfl

@[simp] theorem State.reg16_setReg16 (s : State) (rr : Reg16) (w : Word) : (s.setReg16 rr w).reg16 rr = w := by
  cases rr with
  | sp => rfl
  | bc => exact State.pair_setPair s .bc w (by decide)
  | de => exact State.pair_setPair s .de w (by decide)
  | hl => exact State.pair_setPair s .hl w (by decide)

@[simp] theorem State.advance_reg16 (s : State) (len : Nat) (rr : Reg16) : (s.advance len).reg16 rr = s.reg16 rr := by
  cases rr <;> rfl

/-- Writing a pair keeps the registers it is not made of. -/
theorem regsKept_setPair (s : State) (p : Pair) (w : Word) : regsKept p.halves s (s.setPair p w) := by
  cases p with
  | bc => exact regsKept_trans (regsKept_setReg s .b w.high) (regsKept_setReg _ .c w.low)
  | de => exact regsKept_trans (regsKept_setReg s .d w.high) (regsKept_setReg _ .e w.low)
  | hl => exact regsKept_trans (regsKept_setReg s .h w.high) (regsKept_setReg _ .l w.low)
  | af => exact fun q hq => (State.setF_reg _ _ q).trans (regsKept_setReg s .a w.high q hq)

theorem regsKept_setReg16 (s : State) (rr : Reg16) (w : Word) : regsKept rr.halves s (s.setReg16 rr w) := by
  cases rr with
  | sp => exact fun q _ => State.withSp_reg s w q
  | bc => exact regsKept_setPair s .bc w
  | de => exact regsKept_setPair s .de w
  | hl => exact regsKept_setPair s .hl w

/-- The frame of a 16-bit operand written and PC advanced. -/
theorem frame_setReg16_advance (s : State) (rr : Reg16) (w : Word) (len : Nat) :
    let t := (s.setReg16 rr w).advance len
    regsKept rr.halves s t ∧ (rr ≠ .sp → t.sp = s.sp) ∧ t.f = s.f ∧ bytesKept [] s t ∧ t.run = s.run ∧ pcPast len s t :=
  ⟨fun q hq => by rw [State.advance_reg, regsKept_setReg16 s rr w q hq], State.setReg16_sp_of_ne s w, by simp,
    bytesKept_of_mem (by simp) [], by simp, pcPast_advance (by simp) len⟩

/-! ## Increment and decrement -/

/-- Settles O6: the new value's number, H as the old low nibble, and the frame of one register with flags. -/
theorem incRegResult : Obligations.IncRegResult := by
  unfold Obligations.IncRegResult
  intro r s
  refine ⟨_, exec_instr (.incR r) s, ?_, ?_, ?_, ?_, ?_, and_F0_low _,
    frame_setReg_setFlags_advance s r _ _ _ _ _ _ 1⟩
  · simp
  · simp [isZero_eq]
  · simp
  · simp [halfCarryInc_eq]
  · simp

/-- Settles O7: as `INC r`, with 255 added for the 1 taken away. -/
theorem decRegResult : Obligations.DecRegResult := by
  unfold Obligations.DecRegResult
  intro r s
  refine ⟨_, exec_instr (.decR r) s, ?_, ?_, ?_, ?_, ?_, and_F0_low _,
    frame_setReg_setFlags_advance s r _ _ _ _ _ _ 1⟩
  · simp [BitVec.toNat_sub, Nat.add_comm]
  · simp [isZero_eq]
  · simp
  · simp [halfBorrowDec_eq]
  · simp

/-- Settles O8: the 16-bit sum and the frame of a 16-bit operand. -/
theorem incPairResult : Obligations.IncPairResult := by
  unfold Obligations.IncPairResult
  intro rr s
  refine ⟨_, exec_instr (.incRr rr) s, ?_, frame_setReg16_advance s rr _ 1⟩
  simp

/-- Settles O9: what one adds the other takes away, and each writes its own N. -/
theorem incDecInverse : Obligations.IncDecInverse := by
  unfold Obligations.IncDecInverse
  intro r s
  refine ⟨⟨_, _, exec_instr (.incR r) s, exec_instr (.decR r) _, ?_, ?_⟩,
    ⟨_, _, exec_instr (.decR r) s, exec_instr (.incR r) _, ?_, ?_⟩⟩
  · simp
  · simp
  · simp
  · simp

/-! ## Exclusive or and compare -/

/-- Settles O10: the exclusive or is zero exactly where its operands are equal. -/
theorem xorRegResult : Obligations.XorRegResult := by
  unfold Obligations.XorRegResult
  intro r s
  refine ⟨_, exec_instr (.xorR r) s, rfl, ?_, ?_, ?_, ?_, and_F0_low _, ?_,
    frame_setReg_setFlags_advance s .a _ _ _ _ _ _ 1⟩
  · simp [isZero, BitVec.xor_eq_zero_iff]
  · simp
  · simp
  · simp
  · rintro rfl
    have hzero : s.a ^^^ s.reg .a = 0 := BitVec.xor_self
    refine ⟨hzero, ?_⟩
    simp only [State.advance_f, Config.decided_flagPos, State.setFlags_f, hzero]
    decide

/-- Settles O11: the flags of a compare are the predicates of the laws about F, and only F and PC are written. -/
theorem cpImmResult : Obligations.CpImmResult := by
  unfold Obligations.CpImmResult
  intro n s
  refine ⟨_, exec_instr (.cpN n) s, ?_, ?_, ?_, ?_, and_F0_low _,
    frame_setFlags_advance _ _ _ _ _ 2 (regsKept_refl _ s) rfl rfl rfl rfl⟩
  · simp [BitVec.toNat_inj]
  · simp
  · simp [halfBorrowCp_eq]
  · simp [borrowCp]

/-! ## Bit test and rotate -/

/-- The complement of a bit as a predicate on the number. -/
theorem not_getLsbD_eq (v : Byte) (k : Nat) : (!v.getLsbD k) = decide (v.toNat / 2 ^ k % 2 = 0) := by
  rw [BitVec.getLsbD, Nat.testBit_eq_decide_div_mod_eq]
  rcases Nat.mod_two_eq_zero_or_one (v.toNat / 2 ^ k) with h | h <;> simp [h]

/-- Settles O12: Z is the complement of the bit, and only F and PC are written. -/
theorem bitTestResult : Obligations.BitTestResult := by
  unfold Obligations.BitTestResult
  intro b r s
  refine ⟨_, exec_instr (.bitBR b r) s, ?_, ?_, ?_, ?_, and_F0_low _,
    frame_setFlags_advance _ _ _ _ _ 2 (regsKept_refl _ s) rfl rfl rfl rfl⟩
  · simp only [State.advance_flagAt, Config.decided_flagPos, State.setFlags_z, not_getLsbD_eq]
  · simp
  · simp
  · simp

@[simp] theorem rotated_reg (c : Config) (r : Reg8) (s : State) :
    (rotated c r s).reg r = rotateLeft (s.reg r) (s.flagAt c.flagPos .c) := by
  simp [rotated]

@[simp] theorem rotated_z (r : Reg8) (s : State) :
    (rotated Config.decided r s).flag .z = isZero (rotateLeft (s.reg r) (s.flag .c)) :=
  State.setFlags_z _ _ _ _ _

@[simp] theorem rotated_n (r : Reg8) (s : State) : (rotated Config.decided r s).flag .n = false :=
  State.setFlags_n _ _ _ _ _

@[simp] theorem rotated_h (r : Reg8) (s : State) : (rotated Config.decided r s).flag .h = false :=
  State.setFlags_h _ _ _ _ _

@[simp] theorem rotated_c (r : Reg8) (s : State) : (rotated Config.decided r s).flag .c = carryRotate (s.reg r) :=
  State.setFlags_c _ _ _ _ _

/-- The frame of a rotate. -/
theorem frame_rotated_advance (c : Config) (r : Reg8) (s : State) (len : Nat) :
    let t := (rotated c r s).advance len
    regsKept [r] s t ∧ bytesKept [] s t ∧ t.sp = s.sp ∧ t.run = s.run ∧ pcPast len s t :=
  frame_setReg_setFlags_advance s r _ _ _ _ _ _ len

/-- Settles O13: the rotate's number, its carry as the old bit 7, and its frame. -/
theorem rotateRegResult : Obligations.RotateRegResult := by
  unfold Obligations.RotateRegResult
  intro r s
  refine ⟨_, exec_instr (.rlR r) s, ?_, ?_, ?_, ?_, ?_, and_F0_low _, frame_rotated_advance _ r s 2⟩
  · simp [rotateLeft_toNat]
  · simp [isZero_eq]
  · simp
  · simp
  · simp [carryRotate_eq]

/-- Settles O14: both advance the same rotated state, by 1 and by 2. -/
theorem rlaIsRotateA : Obligations.RlaIsRotateA := by
  unfold Obligations.RlaIsRotateA
  intro s
  obtain ⟨hregs, hbytes, hsp, hrun, hpc⟩ := frame_rotated_advance Config.decided .a s 1
  refine ⟨_, _, exec_instr .rla s, exec_instr (.rlR .a) s, rfl, hpc, ?_, ?_, ?_, hregs, hbytes, hsp, hrun⟩
  · exact rotateLeft_toNat s.a (s.flag .c)
  · exact (rotated_c .a s).trans (carryRotate_eq s.a)
  · exact rotated_z .a s

/-- A machine whose step always answers runs as the iterate of that step. -/
theorem run_eq_iterate {M : Host.Core} {g : M.State → M.State} (h : ∀ s, M.step s = .next (g s)) (k : Nat)
    (s : M.State) : M.run k s = .next (g^[k] s) := by
  induction k generalizing s with
  | zero => rfl
  | succ k ih => simp only [Host.Core.run, h, ih, Function.iterate_succ_apply]

/-- What `RLA` does to the state. -/
def afterRla (s : State) : State := (rotated Config.decided .a s).advance 1

theorem exec_rla (s : State) : exec Form.rla.instr s = .next (afterRla s) := exec_instr .rla s

/-- The machine that only runs `RLA`. -/
def rlaMachine (reset : State) : Host.Core :=
  { State := State, Fault := Fault, Refusal := Refusal, step := exec Form.rla.instr, reset := reset }

theorem run_rlaMachine (k : Nat) (s : State) : (rlaMachine s).run k s = .next (afterRla^[k] s) :=
  run_eq_iterate (M := rlaMachine s) exec_rla k s

/-- What it does to A and the carry: a rotation of nine bits (42_bit_rotate R131). -/
def rotateNine (x : Byte × Bool) : Byte × Bool := (rotateLeft x.1 x.2, carryRotate x.1)

/-- A and the carry of a state. -/
def carryAndA (s : State) : Byte × Bool := (s.a, s.flag .c)

theorem carryAndA_afterRla : Function.Semiconj carryAndA afterRla rotateNine := fun s =>
  Prod.ext (rotated_reg Config.decided .a s) (rotated_c .a s)

theorem rotateNine_nine (x : Byte × Bool) : rotateNine^[9] x = x := by
  have key : ∀ (v : Byte) (b : Bool), rotateNine^[9] (v, b) = (v, b) := by decide
  exact key x.1 x.2

/-- The frame of several `RLA`: the registers but A, and PC. -/
theorem frame_iterate_afterRla (k : Nat) (s : State) :
    regsKept [.a] s (afterRla^[k] s) ∧ (afterRla^[k] s).pc = s.pc + BitVec.ofNat 16 k := by
  induction k with
  | zero => exact ⟨regsKept_refl _ s, (BitVec.add_zero s.pc).symm⟩
  | succ k ih =>
    obtain ⟨hregs, hpc⟩ := ih
    rw [Function.iterate_succ_apply']
    refine ⟨fun q hq => ?_, ?_⟩
    · rw [← hregs q hq]
      exact (frame_rotated_advance Config.decided .a _ 1).1 q hq
    · show (afterRla^[k] s).pc + 1#16 = s.pc + BitVec.ofNat 16 (k + 1)
      rw [hpc, BitVec.ofNat_add, BitVec.add_assoc]

/-- Settles O15: nine steps of the rotation of nine bits are the identity on A and the carry. -/
theorem nineRlaRestore : Obligations.NineRlaRestore := by
  unfold Obligations.NineRlaRestore
  intro s
  obtain ⟨hregs, hpc⟩ := frame_iterate_afterRla 9 s
  have hnine : carryAndA (afterRla^[9] s) = carryAndA s :=
    ((carryAndA_afterRla.iterate_right 9) s).trans (rotateNine_nine _)
  have ha : (afterRla^[9] s).a = s.a := congrArg Prod.fst hnine
  refine ⟨afterRla^[9] s, run_rlaMachine 9 s, ha, congrArg Prod.snd hnine, fun q _ => ?_,
    pcPast_of_pc hpc⟩
  by_cases hq : q = .a
  · rw [hq]
    exact ha
  · exact hregs q (by simpa using hq)

/-! ## Loads between registers -/

/-- Settles O16: both are one register loaded. -/
theorem loadRegResult : Obligations.LoadRegResult := by
  unfold Obligations.LoadRegResult
  exact ⟨fun dst src s => ⟨_, exec_instr (.ldRR dst src) s, loaded_setReg_advance s dst _ 1⟩,
    fun r n s => ⟨_, exec_instr (.ldRN r n) s, loaded_setReg_advance s r n 2⟩⟩

/-- Settles O17: the 16-bit operand reads back the word. -/
theorem loadPairResult : Obligations.LoadPairResult := by
  unfold Obligations.LoadPairResult
  intro rr nn s
  exact ⟨_, exec_instr (.ldRrNn rr nn) s, by simp, frame_setReg16_advance s rr nn 3⟩

end Sys2Proof.Machine

/-! PROOFS about loads and stores (20_memory R58, 43_load): what a load and a store of one byte at an address that
exists leave, HL changed after them, two-byte accesses, and the statements they settle. -/

namespace Sys2Proof.Machine

/-! ## A load of one byte -/

/-- A load from an address that exists. -/
theorem loadFrom_of_inRange {c : Config} {r : Reg8} {addr : Int} {len : Nat} {s : State} (h : inRange c addr) :
    loadFrom c r addr len s = .ok ((s.setReg r (s.byteAt addr.toNat)).advance len) := by
  simp only [loadFrom, memRead_of_inRange h]

/-- A form that is a load from an address that exists. -/
theorem exists_loaded {f : Form} {r : Reg8} {addr : Int} {len : Nat} {s : State} (h : inRange Config.decided addr)
    (hf : runForm Config.decided f s = commit s (loadFrom Config.decided r addr len s)) :
    ∃ t, exec f.instr s = .next t ∧ loaded r (s.byteAt addr.toNat) len s t :=
  ⟨_, by rw [exec_instr, hf, loadFrom_of_inRange h, commit_ok], loaded_setReg_advance s r _ len⟩

/-- Settles O18: the address is the old HL, which `exists_loaded` reads before H or L is written. -/
theorem loadAtHlResult : Obligations.LoadAtHlResult := by
  unfold Obligations.LoadAtHlResult
  intro r s
  rw [← s.toNat_pair_hl]
  exact exists_loaded (inRange_wordAddr (s.pair .hl)) rfl

/-- Settles O19: each is a load at its own address, which exists. -/
theorem loadAResult : Obligations.LoadAResult := by
  unfold Obligations.LoadAResult
  intro s n nn
  rw [← s.toNat_pair_bc, ← s.toNat_pair_de, ← toNat_zeroPageAddr, ← toNat_zeroPageAddr]
  exact ⟨exists_loaded (inRange_wordAddr (s.pair .bc)) rfl, exists_loaded (inRange_wordAddr (s.pair .de)) rfl,
    exists_loaded (inRange_wordAddr nn) rfl, exists_loaded (inRange_zeroPageAddr n) rfl,
    exists_loaded (inRange_zeroPageAddr s.c) rfl⟩

/-! ## A store of one byte -/

/-- A store to an address that exists. -/
theorem storeTo_of_inRange {c : Config} {addr : Int} {v : Byte} {len : Nat} {s : State} (h : inRange c addr) :
    storeTo c addr v len s = .ok (State.advance { s with mem := s.mem.write addr.toNat v } len) := by
  simp only [storeTo, memWrite_of_inRange h]

/-- One byte written and PC advanced, and nothing else. -/
theorem stored_write_advance {s : State} (hwf : s.mem.wf) (addr : Nat) (v : Byte) (len : Nat) :
    stored addr v len s (State.advance { s with mem := s.mem.write addr v } len) := by
  have hread := Memory.read_write hwf addr v
  refine ⟨(hread addr).trans (if_pos rfl), fun q hq => (hread q).trans (if_neg (by simpa using hq)), fun q _ => ?_,
    ⟨rfl, rfl, rfl⟩, pcPast_advance rfl len⟩
  rw [State.advance_reg, State.withMem_reg]

/-- A form that is a store to an address that exists. -/
theorem exists_stored {f : Form} {addr : Int} {v : Byte} {len : Nat} {s : State} (hwf : s.mem.wf)
    (h : inRange Config.decided addr)
    (hf : runForm Config.decided f s = commit s (storeTo Config.decided addr v len s)) :
    ∃ t, exec f.instr s = .next t ∧ stored addr.toNat v len s t :=
  ⟨_, by rw [exec_instr, hf, storeTo_of_inRange h, commit_ok], stored_write_advance hwf _ v len⟩

/-- Settles O20: a store at HL, where every address exists. -/
theorem storeAtHlResult : Obligations.StoreAtHlResult := by
  unfold Obligations.StoreAtHlResult
  intro r s hwf
  exact exists_stored hwf (inRange_wordAddr (s.pair .hl)) rfl

/-- Settles O21: each is a store at its own address, which exists. -/
theorem storeAResult : Obligations.StoreAResult := by
  unfold Obligations.StoreAResult
  intro s n nn hwf
  exact ⟨exists_stored hwf (inRange_wordAddr (s.pair .bc)) rfl, exists_stored hwf (inRange_wordAddr (s.pair .de)) rfl,
    exists_stored hwf (inRange_wordAddr nn) rfl, exists_stored hwf (inRange_zeroPageAddr n) rfl,
    exists_stored hwf (inRange_zeroPageAddr s.c) rfl⟩

/-! ## HL changed after the access -/

theorem State.pair_setPair_hl (s : State) (w : Word) : (s.setPair .hl w).pair .hl = w :=
  State.pair_setPair s .hl w (by decide)

theorem regsKept_setPair_hl (s : State) (w : Word) : regsKept [.h, .l] s (s.setPair .hl w) := regsKept_setPair s .hl w

theorem loadAHl_of_inRange {c : Config} {delta : Int} {s : State} (h : inRange c (wordAddr (s.pair .hl))) :
    loadAHl c delta s = .next (((s.setReg .a (s.byteAt (s.pair .hl).toNat)).advance 1).setPair .hl
      (s.pair .hl + BitVec.ofInt 16 delta)) := by
  rw [loadAHl, loadFrom_of_inRange h, thenHl, commit_ok, toNat_wordAddr]

theorem storeAHl_of_inRange {c : Config} {delta : Int} {s : State} (h : inRange c (wordAddr (s.pair .hl))) :
    storeAHl c delta s = .next ((State.advance { s with mem := s.mem.write (s.pair .hl).toNat s.a } 1).setPair .hl
      (s.pair .hl + BitVec.ofInt 16 delta)) := by
  rw [storeAHl, storeTo_of_inRange h, thenHl, commit_ok, toNat_wordAddr]

/-- A load of A whose HL then changes (R150, R152): A is the byte at the old HL. -/
theorem exists_loadedHl {f : Form} {delta : Int} {s : State}
    (hf : runForm Config.decided f s = loadAHl Config.decided delta s) :
    ∃ t, exec f.instr s = .next t ∧ t.a = s.byteAt (256 * s.h.toNat + s.l.toNat) ∧
      t.pair .hl = s.pair .hl + BitVec.ofInt 16 delta ∧
      regsKept [.a, .h, .l] s t ∧ bytesKept [] s t ∧ controlKept s t ∧ pcPast 1 s t := by
  rw [exec_instr, hf, loadAHl_of_inRange (inRange_wordAddr _), ← s.toNat_pair_hl]
  obtain ⟨ha, hregs, hbytes, hcontrol, hpc⟩ := loaded_setReg_advance s .a (s.byteAt (s.pair .hl).toNat) 1
  exact ⟨_, rfl, ha, State.pair_setPair_hl _ _, regsKept_trans hregs (regsKept_setPair_hl _ _), hbytes, hcontrol, hpc⟩

/-- A store of A whose HL then changes (R149, R151): A goes to the old HL. -/
theorem exists_storedHl {f : Form} {delta : Int} {s : State} (hwf : s.mem.wf)
    (hf : runForm Config.decided f s = storeAHl Config.decided delta s) :
    ∃ t, exec f.instr s = .next t ∧ t.byteAt (wordAddr (s.pair .hl)).toNat = s.a ∧
      bytesKept [(wordAddr (s.pair .hl)).toNat] s t ∧ t.pair .hl = s.pair .hl + BitVec.ofInt 16 delta ∧
      regsKept [.h, .l] s t ∧ controlKept s t ∧ pcPast 1 s t := by
  rw [exec_instr, hf, storeAHl_of_inRange (inRange_wordAddr _), toNat_wordAddr]
  obtain ⟨hbyte, hbytes, hregs, hcontrol, hpc⟩ := stored_write_advance hwf (s.pair .hl).toNat s.a 1
  exact ⟨_, rfl, hbyte, hbytes, State.pair_setPair_hl _ _, regsKept_trans hregs (regsKept_setPair_hl _ _), hcontrol,
    hpc⟩

/-- One more, as a number. -/
theorem toNat_add_ofInt_one (w : Word) : (w + BitVec.ofInt 16 1).toNat = (w.toNat + 1) % 65536 :=
  BitVec.toNat_add w 1

/-- One less, as a number. -/
theorem toNat_add_ofInt_neg_one (w : Word) : (w + BitVec.ofInt 16 (-1)).toNat = (w.toNat + 65535) % 65536 :=
  BitVec.toNat_add w 65535

/-- Settles O22: the load at the old HL, with 1 and with -1. -/
theorem loadHlStepResult : Obligations.LoadHlStepResult := by
  unfold Obligations.LoadHlStepResult
  intro s
  obtain ⟨t, ht, hta, hthl, htframe⟩ := exists_loadedHl (f := .ldAAtHlInc) (s := s) rfl
  obtain ⟨u, hu, hua, huhl, huframe⟩ := exists_loadedHl (f := .ldAAtHlDec) (s := s) rfl
  exact ⟨⟨t, ht, hta, hthl ▸ toNat_add_ofInt_one _, htframe⟩, ⟨u, hu, hua, huhl ▸ toNat_add_ofInt_neg_one _, huframe⟩⟩

/-- Settles O23: the store at the old HL, with 1 and with -1. -/
theorem storeHlStepResult : Obligations.StoreHlStepResult := by
  unfold Obligations.StoreHlStepResult
  intro s hwf
  obtain ⟨t, ht, htbyte, htbytes, hthl, htframe⟩ := exists_storedHl (f := .ldAtHlIncA) hwf rfl
  obtain ⟨u, hu, hubyte, hubytes, huhl, huframe⟩ := exists_storedHl (f := .ldAtHlDecA) hwf rfl
  exact ⟨⟨t, ht, htbyte, htbytes, hthl ▸ toNat_add_ofInt_one _, htframe⟩,
    ⟨u, hu, hubyte, hubytes, huhl ▸ toNat_add_ofInt_neg_one _, huframe⟩⟩

/-! ## Two-byte accesses -/

/-- The first address out of range is reported, whatever the second. -/
theorem memRead16_of_not_inRange {c : Config} {s : State} {addr : Int} (h : ¬ inRange c addr) :
    memRead16 c s addr = .error addr := by
  rcases memRead_cases c s (addr + 1) with ⟨-, hread⟩ | ⟨-, hread⟩ <;>
    simp only [memRead16, memRead_of_not_inRange h, hread]

/-- Two bytes written one above the other: each reads back, the rest as before. -/
theorem read_write_pair {m : Memory} (hm : m.wf) (k : Nat) (lo hi : Byte) :
    ((m.write k lo).write (k + 1) hi).read k = lo ∧ ((m.write k lo).write (k + 1) hi).read (k + 1) = hi ∧
    ∀ q, q ≠ k → q ≠ k + 1 → ((m.write k lo).write (k + 1) hi).read q = m.read q := by
  have hread := Memory.read_write_write hm k lo (k + 1) hi
  refine ⟨?_, ?_, fun q hk hk1 => ?_⟩
  · rw [hread, if_neg (by omega), if_pos rfl]
  · rw [hread, if_pos rfl]
  · rw [hread, if_neg hk1, if_neg hk]

/-- Settles O38, by which of the two addresses exists. -/
theorem twoByteAccessRule : Obligations.TwoByteAccessRule := by
  unfold Obligations.TwoByteAccessRule
  intro c s addr w hwf
  refine ⟨fun hout => ⟨memRead16_of_not_inRange hout, ?_⟩, fun hin hout => ⟨?_, ?_⟩, ?_⟩
  · simp only [memWrite16, memWrite_of_not_inRange hout]
  · simp only [memRead16, memRead_of_inRange hin, memRead_of_not_inRange hout]
  · simp only [memWrite16, memWrite_of_inRange hin, memWrite_of_not_inRange hout]
  · rintro k rfl hk
    have hin : inRange c (k : Int) := inRange_natCast (by omega)
    have hin1 : inRange c ((k : Int) + 1) := inRange_natCast hk
    refine ⟨?_, _, ?_, read_write_pair hwf k w.low w.high⟩
    · simp only [memRead16, memRead_of_inRange hin, memRead_of_inRange hin1]
      rfl
    · simp only [memWrite16, memWrite_of_inRange hin, memWrite_of_inRange hin1]
      rfl

end Sys2Proof.Machine

/-! PROOFS about the stack and control transfer (44_stack, 45_control): which access of a form faults first, what a push
leaves, a pop behind a push, jump targets, and the statements they settle. -/

namespace Sys2Proof.Machine

/-! ## The first address that does not exist -/

/-- The first of the addresses that does not exist: the one a fault reports (20_memory R58). -/
def firstFault (c : Config) : List Int → Option Int
  | [] => none
  | a :: rest => if inRange c a then firstFault c rest else some a

theorem firstFault_singleton (c : Config) (a : Int) : firstFault c [a] = if inRange c a then none else some a := rfl

theorem firstFault_pair (c : Config) (a b : Int) :
    firstFault c [a, b] = if inRange c a then (if inRange c b then none else some b) else some a := rfl

/-- An answer that faults at the first address that does not exist, and keeps RUN where all exist. -/
def faultsFirst (c : Config) (s : State) (addrs : List Int) (r : Result) : Prop :=
  match firstFault c addrs with
  | some k => r = .next (takeEvent s (.indexFault k))
  | none => ∃ t, r = .next t ∧ t.run = s.run

theorem faultsFirst_nil {c : Config} {s t : State} (h : t.run = s.run) : faultsFirst c s [] (.next t) := ⟨t, rfl, h⟩

theorem faultsFirst_load (c : Config) (r : Reg8) (addr : Int) (len : Nat) (s : State) :
    faultsFirst c s [addr] (commit s (loadFrom c r addr len s)) := by
  unfold faultsFirst
  rw [firstFault_singleton]
  by_cases h : inRange c addr
  · rw [if_pos h, loadFrom_of_inRange h]
    exact ⟨_, rfl, by simp⟩
  · rw [if_neg h]
    simp only [loadFrom, memRead_of_not_inRange h, commit_error]

theorem faultsFirst_store (c : Config) (addr : Int) (v : Byte) (len : Nat) (s : State) :
    faultsFirst c s [addr] (commit s (storeTo c addr v len s)) := by
  unfold faultsFirst
  rw [firstFault_singleton]
  by_cases h : inRange c addr
  · rw [if_pos h, storeTo_of_inRange h]
    exact ⟨_, rfl, rfl⟩
  · rw [if_neg h]
    simp only [storeTo, memWrite_of_not_inRange h, commit_error]

theorem faultsFirst_loadHl (c : Config) (delta : Int) (s : State) :
    faultsFirst c s [wordAddr (s.pair .hl)] (loadAHl c delta s) := by
  unfold faultsFirst
  rw [firstFault_singleton]
  by_cases h : inRange c (wordAddr (s.pair .hl))
  · rw [if_pos h, loadAHl_of_inRange h]
    exact ⟨_, rfl, rfl⟩
  · rw [if_neg h]
    simp only [loadAHl, loadFrom, memRead_of_not_inRange h, thenHl, commit_error]

theorem faultsFirst_storeHl (c : Config) (delta : Int) (s : State) :
    faultsFirst c s [wordAddr (s.pair .hl)] (storeAHl c delta s) := by
  unfold faultsFirst
  rw [firstFault_singleton]
  by_cases h : inRange c (wordAddr (s.pair .hl))
  · rw [if_pos h, storeAHl_of_inRange h]
    exact ⟨_, rfl, rfl⟩
  · rw [if_neg h]
    simp only [storeAHl, storeTo, memWrite_of_not_inRange h, thenHl, commit_error]

theorem faultsFirst_push (c : Config) (v : Word) (s : State) {g : State → State} (hg : ∀ t, (g t).run = t.run) :
    faultsFirst c s [pushAddr s, pushAddr s + 1] (commit s ((push c v s).map g)) := by
  unfold faultsFirst
  rw [firstFault_pair]
  rcases push_cases c v s with ⟨hlow, hhigh, h⟩ | ⟨hlow, h⟩ | ⟨hlow, hhigh, h⟩ <;> rw [h]
  · rw [if_pos hlow, if_pos hhigh]
    exact ⟨_, rfl, hg _⟩
  · rw [if_neg hlow]
    rfl
  · rw [if_pos hlow, if_neg hhigh]
    rfl

theorem faultsFirst_pop (c : Config) (s : State) {g : Word × State → State} (hg : ∀ v t, (g (v, t)).run = t.run) :
    faultsFirst c s [popAddr s, popAddr s + 1] (commit s ((pop c s).map g)) := by
  unfold faultsFirst
  rw [firstFault_pair]
  rcases pop_cases c s with ⟨hlow, hhigh, h⟩ | ⟨hlow, h⟩ | ⟨hlow, hhigh, h⟩ <;> rw [h]
  · rw [if_pos hlow, if_pos hhigh]
    exact ⟨_, rfl, hg _ _⟩
  · rw [if_neg hlow]
    rfl
  · rw [if_pos hlow, if_neg hhigh]
    rfl

@[simp] theorem rotated_run (c : Config) (r : Reg8) (s : State) : (rotated c r s).run = s.run := by simp [rotated]

/-- Every form faults exactly where one of the addresses it accesses does not exist. -/
theorem runForm_faultsFirst (c : Config) (f : Form) (s : State) :
    faultsFirst c s (accessedAddrs s f) (runForm c f s) := by
  cases f with
  | incR | decR | incRr | xorR | cpN | bitBR | rla | rlR | ldRR | ldRN | ldRrNn => exact faultsFirst_nil (by simp)
  | jr | jp => exact faultsFirst_nil rfl
  | jrCc cc e =>
    simp only [runForm, jumpRelIf]
    split <;> exact faultsFirst_nil rfl
  | ldRAtHl | ldAAtBc | ldAAtDe | ldhAAtN | ldAAtC | ldAAtNn => exact faultsFirst_load c _ _ _ s
  | ldAtHlR | ldAtBcA | ldAtDeA | ldhAtNA | ldAtCA | ldAtNnA => exact faultsFirst_store c _ _ _ s
  | ldAAtHlInc | ldAAtHlDec => exact faultsFirst_loadHl c _ s
  | ldAtHlIncA | ldAtHlDecA => exact faultsFirst_storeHl c _ s
  | push p => exact faultsFirst_push c _ s fun _ => rfl
  | pop p => exact faultsFirst_pop c s fun _ _ => by simp
  | call nn => exact faultsFirst_push c _ s fun _ => rfl
  | ret => exact faultsFirst_pop c s fun _ _ => rfl

/-- A form with an address that does not exist faults at the first such. -/
theorem runForm_of_firstFault {c : Config} {f : Form} {s : State} {k : Int}
    (h : firstFault c (accessedAddrs s f) = some k) : runForm c f s = .next { s with run := .faulted k } := by
  have hfaults := runForm_faultsFirst c f s
  rw [faultsFirst, h] at hfaults
  exact hfaults

/-- A form that ended a fetching state's run faulted at the first address that does not exist. -/
theorem firstFault_of_ended {c : Config} {f : Form} {s t : State} (hs : s.run = .fetching)
    (h : runForm c f s = .next t) (ht : t.run ≠ .fetching) :
    ∃ k, firstFault c (accessedAddrs s f) = some k ∧ t.run = .faulted k := by
  have hfaults := runForm_faultsFirst c f s
  rw [faultsFirst, h] at hfaults
  cases hfirst : firstFault c (accessedAddrs s f) <;> rw [hfirst] at hfaults
  case none =>
    obtain ⟨u, hu, hrun⟩ := hfaults
    cases hu
    exact absurd (hrun.trans hs) ht
  case some k =>
    cases hfaults
    exact ⟨k, rfl, rfl⟩

/-! ## Where the stack forms fault at 65536 bytes -/

theorem firstFault_push (c : Config) {s : State} (h : s.sp = 0) :
    firstFault c [pushAddr s, pushAddr s + 1] = some (-1) := by
  have haddr : pushAddr s = -1 := by rw [pushAddr, h]; rfl
  rw [firstFault_pair, haddr]
  exact if_neg fun hin => absurd hin.1 (by decide)

theorem firstFault_push_decided {s : State} {k : Int}
    (h : firstFault Config.decided [pushAddr s, pushAddr s + 1] = some k) : k = -1 ∧ s.sp = 0 := by
  have hsp := s.sp.isLt
  by_cases hzero : s.sp = 0
  · rw [firstFault_push _ hzero] at h
    exact ⟨(Option.some.inj h).symm, hzero⟩
  · have hpos : s.sp.toNat ≠ 0 := fun e => hzero (BitVec.eq_of_toNat_eq e)
    rw [firstFault_pair, if_pos (by simp only [inRange, pushAddr, wordAddr, decided_memSize]; omega),
      if_pos (by simp only [inRange, pushAddr, wordAddr, decided_memSize]; omega)] at h
    cases h

theorem firstFault_pop_decided (s : State) :
    firstFault Config.decided [popAddr s, popAddr s + 1] = if 65534 ≤ s.sp.toNat then some 0x10000 else none := by
  have hsp := s.sp.isLt
  have haddr : popAddr s = s.sp.toNat + 1 := rfl
  rw [firstFault_pair, haddr]
  rcases (by omega : s.sp.toNat < 65534 ∨ s.sp.toNat = 65534 ∨ s.sp.toNat = 65535) with h | h | h
  · rw [if_pos ⟨by omega, by rw [decided_memSize]; omega⟩, if_pos ⟨by omega, by rw [decided_memSize]; omega⟩,
      if_neg (by omega)]
  · rw [h]; decide
  · rw [h]; decide

/-- Settles O26: at the ends of Memory the first address of the two that does not exist is -1, or 0x10000. -/
theorem stackTraps : Obligations.StackTraps := by
  unfold Obligations.StackTraps
  intro p nn s
  simp only [exec_instr]
  refine ⟨fun hsp => ?_, fun hsp => ?_⟩
  · exact ⟨runForm_of_firstFault (firstFault_push _ hsp), runForm_of_firstFault (firstFault_push _ hsp)⟩
  · have hfirst : firstFault Config.decided [popAddr s, popAddr s + 1] = some 0x10000 := by
      rw [firstFault_pop_decided, if_pos hsp]
    exact ⟨runForm_of_firstFault hfirst, runForm_of_firstFault hfirst⟩

/-! ## Push -/

/-- The state behind a push that has room (44_stack R170). -/
def afterPush (v : Word) (s : State) : State :=
  { s with sp := s.sp - 2, mem := (s.mem.write (s.sp.toNat - 1) v.low).write s.sp.toNat v.high }

theorem push_eq_afterPush {c : Config} {s : State} (v : Word) (h1 : 1 ≤ s.sp.toNat) (h2 : s.sp.toNat < c.memSize) :
    push c v s = .ok (afterPush v s) := push_of_lt v h1 h2

theorem one_le_sp {s : State} (h : s.sp ≠ 0) : 1 ≤ s.sp.toNat :=
  Nat.one_le_iff_ne_zero.2 fun e => h (BitVec.eq_of_toNat_eq e)

theorem toNat_pushAddr {s : State} : (pushAddr s).toNat = s.sp.toNat - 1 := by
  simp only [pushAddr, wordAddr]
  omega

/-- The bytes behind a push: the word's low half at SP - 1, its high half at SP, the rest as before. -/
theorem byteAt_afterPush {s : State} (v : Word) (hwf : s.mem.wf) (h : 1 ≤ s.sp.toNat) :
    (afterPush v s).byteAt (s.sp.toNat - 1) = v.low ∧ (afterPush v s).byteAt s.sp.toNat = v.high ∧
      bytesKept [s.sp.toNat - 1, s.sp.toNat] s (afterPush v s) := by
  have hpair := read_write_pair hwf (s.sp.toNat - 1) v.low v.high
  rw [Nat.sub_add_cancel h] at hpair
  obtain ⟨hlow, hhigh, hkept⟩ := hpair
  refine ⟨hlow, hhigh, fun q hq => ?_⟩
  simp only [List.mem_cons, List.not_mem_nil, or_false, not_or] at hq
  exact hkept q hq.1 hq.2

theorem toNat_sp_afterPush (v : Word) (s : State) : (afterPush v s).sp.toNat = (s.sp.toNat + 65534) % 65536 :=
  (BitVec.toNat_sub s.sp 2).trans (congrArg (· % 65536) (Nat.add_comm _ _))

@[simp] theorem afterPush_reg (v : Word) (s : State) (q : Reg8) : (afterPush v s).reg q = s.reg q := by cases q <;> rfl

/-- Settles O24: the push of the pair's word, which from SP at least 1 has room. -/
theorem pushResult : Obligations.PushResult := by
  unfold Obligations.PushResult
  intro p s hwf hsp
  have hone := one_le_sp hsp
  obtain ⟨hlow, hhigh, hbytes⟩ := byteAt_afterPush (s.pair p) hwf hone
  rw [exec_instr, runForm, pushPair, push_eq_afterPush _ hone s.sp.isLt, toNat_pushAddr]
  exact ⟨_, rfl, hlow, hhigh, toNat_sp_afterPush (s.pair p) s, hbytes, fun q _ => by simp, rfl, rfl,
    pcPast_advance rfl 1⟩

/-- Settles O29: the push of the address of the next instruction, whose halves are its quotient and remainder by 256. -/
theorem callResult : Obligations.CallResult := by
  unfold Obligations.CallResult
  intro nn s hwf hsp
  have hone := one_le_sp hsp
  obtain ⟨hlow, hhigh, hbytes⟩ := byteAt_afterPush (s.pc + 3) hwf hone
  rw [exec_instr, runForm, callAbs, push_eq_afterPush _ hone s.sp.isLt, toNat_pushAddr]
  refine ⟨_, rfl, rfl, ?_, toNat_sp_afterPush (s.pc + 3) s, hbytes, fun q _ => by simp, rfl, rfl⟩
  show 256 * ((afterPush (s.pc + 3) s).byteAt s.sp.toNat).toNat +
    ((afterPush (s.pc + 3) s).byteAt (s.sp.toNat - 1)).toNat = (s.pc.toNat + 3) % 65536
  rw [hlow, hhigh, Word.toNat_high, Word.toNat_low, Nat.div_add_mod]
  exact BitVec.toNat_add s.pc 3

/-! ## Pop -/

theorem pop_eq_poppedWord {c : Config} {s : State} (h : s.sp.toNat + 2 < c.memSize) :
    pop c s = .ok (poppedWord s, { s with sp := s.sp + 2 }) := pop_of_lt h

theorem toNat_sp_add_two {s : State} (h : s.sp.toNat < 65534) : (s.sp + 2).toNat = s.sp.toNat + 2 :=
  (BitVec.toNat_add s.sp 2).trans (Nat.mod_eq_of_lt (by show s.sp.toNat + 2 < 65536; omega))

/-- Settles O25: the popped word goes to the pair, or its halves to A and, masked, to F. -/
theorem popResult : Obligations.PopResult := by
  unfold Obligations.PopResult
  intro p s hsp
  rw [exec_instr, runForm, popPair, pop_eq_poppedWord (by rw [decided_memSize]; omega)]
  refine ⟨_, rfl, fun hp => ⟨State.pair_setPair _ p _ hp, ?_⟩, ?_, ?_, ?_, bytesKept_of_mem (by simp) [], by simp,
    pcPast_advance (by simp) 1⟩
  · cases p with
    | af => exact absurd rfl hp
    | bc | de | hl => rfl
  · rintro rfl
    exact ⟨Word.high_ofBytes _ _, congrArg (· &&& 0xF0) (Word.low_ofBytes _ _)⟩
  · rw [State.advance_sp, State.setPair_sp]
    exact toNat_sp_add_two hsp
  · intro q hq
    rw [State.advance_reg, regsKept_setPair _ p _ q hq, State.withSp_reg]

/-- Settles O30: the popped word goes to PC. -/
theorem retResult : Obligations.RetResult := by
  unfold Obligations.RetResult
  intro s hsp
  rw [exec_instr, runForm, returnSub, pop_eq_poppedWord (by rw [decided_memSize]; omega)]
  exact ⟨_, rfl, Word.toNat_ofBytes _ _, toNat_sp_add_two hsp, fun q _ => by simp, fun _ _ => rfl, rfl, rfl⟩

/-! ## Push and pop together -/

/-- A pop where SP and Memory are as a push left them: the pushed word, and SP as before the push. -/
theorem pop_of_afterPush {c : Config} {s t : State} {v : Word} (hwf : s.mem.wf) (h2 : 2 ≤ s.sp.toNat)
    (hlt : s.sp.toNat < c.memSize) (hmem : t.mem = (afterPush v s).mem) (hsp : t.sp = s.sp - 2) :
    pop c t = .ok (v, { t with sp := s.sp }) := by
  have hnat : t.sp.toNat = s.sp.toNat - 2 := by rw [hsp]; exact BitVec.toNat_sub_of_le h2
  obtain ⟨hlow, hhigh, -⟩ := byteAt_afterPush v hwf (by omega : 1 ≤ s.sp.toNat)
  have hword : poppedWord t = v := by
    unfold poppedWord State.byteAt
    rw [hmem, hnat, show s.sp.toNat - 2 + 2 = s.sp.toNat by omega, show s.sp.toNat - 2 + 1 = s.sp.toNat - 1 by omega]
    exact (congrArg₂ Word.ofBytes hhigh hlow).trans (Word.ofBytes_high_low v)
  rw [pop_eq_poppedWord (by omega), hword, hsp, BitVec.sub_add_cancel]

/-- A pop that completed had room, and answered the popped word. -/
theorem room_of_pop_eq_ok {c : Config} {s t : State} {w : Word} (h : pop c s = .ok (w, t)) :
    s.sp.toNat + 2 < c.memSize ∧ w = poppedWord s ∧ t = { s with sp := s.sp + 2 } := by
  rcases pop_cases c s with ⟨-, hhigh, hpop⟩ | ⟨-, hpop⟩ | ⟨-, -, hpop⟩
  · have hroom : s.sp.toNat + 2 < c.memSize := by
      have := hhigh.2
      simp only [popAddr, wordAddr] at this
      omega
    rw [pop_eq_poppedWord hroom] at h
    cases h
    exact ⟨hroom, rfl, rfl⟩
  · rw [hpop] at h; cases h
  · rw [hpop] at h; cases h

/-- Pushing the popped word back writes the bytes that are there. -/
theorem bytesKept_afterPush_poppedWord {s : State} (hwf : s.mem.wf) (h : s.sp.toNat < 65534) :
    bytesKept [] s (afterPush (poppedWord s) { s with sp := s.sp + 2 }) := by
  have hnat := toNat_sp_add_two h
  obtain ⟨hlow, hhigh, hkept⟩ := byteAt_afterPush (s := { s with sp := s.sp + 2 }) (poppedWord s) hwf
    (by show 1 ≤ (s.sp + 2).toNat; omega)
  simp only [hnat] at hlow hhigh hkept
  intro q _
  by_cases hq1 : q = s.sp.toNat + 1
  · rw [hq1]
    exact hlow.trans (Word.low_ofBytes _ _)
  · by_cases hq2 : q = s.sp.toNat + 2
    · rw [hq2]
      exact hhigh.trans (Word.high_ofBytes _ _)
    · exact hkept q (by simp only [List.mem_cons, List.not_mem_nil, or_false, not_or]; exact ⟨hq1, hq2⟩)

/-- Settles O27: what a push stored the pop reads, and what a pop read the push stores. -/
theorem pushPopInverse : Obligations.PushPopInverse := by
  unfold Obligations.PushPopInverse
  intro c s hsize hwf
  refine ⟨fun v h2 hlt => ⟨_, _, push_eq_afterPush v (by omega) hlt, pop_of_afterPush hwf h2 hlt rfl rfl, rfl⟩, ?_⟩
  intro w t hpop
  obtain ⟨hroom, rfl, rfl⟩ := room_of_pop_eq_ok hpop
  have hsp : s.sp.toNat < 65534 := by omega
  have hnat := toNat_sp_add_two hsp
  refine ⟨_, push_eq_afterPush _ ?_ ?_, BitVec.add_sub_cancel s.sp 2, bytesKept_afterPush_poppedWord hwf hsp⟩
  · show 1 ≤ (s.sp + 2).toNat
    omega
  · show (s.sp + 2).toNat < c.memSize
    omega

/-- Settles O28: at SP = 1 the push has room and leaves SP = 0xFFFF, above which no address exists. -/
theorem pushThenPopAtOne : Obligations.PushThenPopAtOne := by
  unfold Obligations.PushThenPopAtOne
  intro v s hsp
  have hone : s.sp.toNat = 1 := by rw [hsp]; rfl
  have hafter : (afterPush v s).sp = 0xFFFF := by show s.sp - 2 = 0xFFFF; rw [hsp]; rfl
  have haddr : popAddr (afterPush v s) = 0x10000 := by rw [popAddr, hafter]; rfl
  refine ⟨_, push_eq_afterPush v (by omega) (by rw [hone]; decide), hafter, ?_⟩
  rw [← haddr]
  simp only [pop, memRead16_of_not_inRange (c := Config.decided) (s := afterPush v s) (addr := popAddr (afterPush v s))
    (by rw [haddr]; decide)]

/-- Settles O31: the return pops the address the call pushed. -/
theorem callThenRet : Obligations.CallThenRet := by
  unfold Obligations.CallThenRet
  intro nn s hwf h2
  have hcall : exec (Form.call nn).instr s = .next ((afterPush (s.pc + 3) s).jump nn) := by
    rw [exec_instr, runForm, callAbs, push_eq_afterPush _ (by omega) s.sp.isLt]
    rfl
  have hpop := pop_of_afterPush (c := Config.decided) (t := (afterPush (s.pc + 3) s).jump nn) hwf h2 s.sp.isLt rfl rfl
  have hret : exec Form.ret.instr ((afterPush (s.pc + 3) s).jump nn) =
      .next (State.jump { (afterPush (s.pc + 3) s).jump nn with sp := s.sp } (s.pc + 3)) := by
    rw [exec_instr, runForm, returnSub, hpop]
    rfl
  refine ⟨_, _, hcall, rfl, hret, pcPast_of_pc rfl, rfl, rfl, fun q _ => ?_⟩
  rw [State.jump_reg, State.withSp_reg, State.jump_reg, afterPush_reg]

/-! ## Jumps -/

/-- Adding an extended displacement adds its signed value, mod 65536 (45_control R183). -/
theorem toNat_add_sext16 (w : Word) (e : Byte) :
    ((w + sext16 e).toNat : Int) = ((w.toNat : Int) + e.toInt) % 65536 := by
  have he := e.isLt
  have hext : (zext16 e).toNat = e.toNat := by rw [zext16, BitVec.toNat_setWidth]; omega
  rw [BitVec.toNat_add, BitVec.toInt_eq_toNat_cond]
  by_cases hneg : e.toNat < 128
  · rw [sext16, if_pos hneg, hext, if_pos (by omega)]
    omega
  · rw [sext16, if_neg hneg, BitVec.toNat_add, hext, if_neg (by omega), BitVec.toNat_ofNat]
    omega

/-- A relative jump's target counts from the next instruction. -/
theorem toNat_pc_add_two_add_sext16 (s : State) (e : Byte) :
    ((s.pc + 2 + sext16 e).toNat : Int) = ((s.pc.toNat : Int) + 2 + e.toInt) % 65536 := by
  have htwo : (s.pc + 2).toNat = (s.pc.toNat + 2) % 65536 := BitVec.toNat_add s.pc 2
  rw [toNat_add_sext16, htwo]
  omega

/-- Settles O32: `JR cc,e` is `JR e` where the condition holds and an advance where it does not. -/
theorem jumpResult : Obligations.JumpResult := by
  unfold Obligations.JumpResult
  intro cc e nn s
  refine ⟨?_, ⟨_, exec_instr (.jr e) s, rfl, toNat_pc_add_two_add_sext16 s e⟩, exec_instr (.jp nn) s⟩
  rw [exec_instr, runForm, jumpRelIf]
  by_cases hcc : s.holds cc = true
  · exact ⟨_, if_pos hcc, rfl, fun _ => toNat_pc_add_two_add_sext16 s e, fun h => absurd (hcc.symm.trans h) (by decide)⟩
  · exact ⟨_, if_neg hcc, rfl, fun h => absurd h hcc, fun _ => pcPast_advance rfl 2⟩

end Sys2Proof.Machine

/-! PROOFS about who reads and writes what (10_state R22, R28, 20_memory R59): what each form leaves, each form run with
another byte in F and other places of the flags, and the statements they settle. -/

namespace Sys2Proof.Machine

/-! ## What a form leaves -/

/-- A form changes Memory, F and SP only if the tables list it. -/
structure Untouched (f : Form) (s t : State) : Prop where
  mem : storesForm f = false → t.mem = s.mem
  flags : writesFlags f = false → t.f = s.f
  sp : writesSp f = false → t.sp = s.sp

theorem Untouched.of_eq {f : Form} {s t : State} (hmem : t.mem = s.mem) (hf : t.f = s.f) (hsp : t.sp = s.sp) :
    Untouched f s t := ⟨fun _ => hmem, fun _ => hf, fun _ => hsp⟩

theorem untouched_of_load {f : Form} {c : Config} {r : Reg8} {addr : Int} {len : Nat} {s t : State}
    (h : commit s (loadFrom c r addr len s) = .next t) : Untouched f s t := by
  rcases memRead_cases c s addr with ⟨-, hread⟩ | ⟨-, hread⟩ <;> simp only [loadFrom, hread] at h <;> cases h
  · exact .of_eq (by simp) (by simp) (by simp)
  · exact .of_eq rfl rfl rfl

theorem untouched_of_loadHl {f : Form} {c : Config} {delta : Int} {s t : State} (h : loadAHl c delta s = .next t) :
    Untouched f s t := by
  rcases memRead_cases c s (wordAddr (s.pair .hl)) with ⟨-, hread⟩ | ⟨-, hread⟩ <;>
    simp only [loadAHl, loadFrom, hread, thenHl] at h <;> cases h <;> exact .of_eq rfl rfl rfl

theorem untouched_of_store {f : Form} {c : Config} {addr : Int} {b : Byte} {len : Nat} {s t : State}
    (hf : storesForm f = true) (h : commit s (storeTo c addr b len s) = .next t) : Untouched f s t := by
  have hmem : storesForm f = false → t.mem = s.mem := fun hno => absurd (hf.symm.trans hno) (by decide)
  rcases memWrite_cases c s addr b with ⟨-, hwrite⟩ | ⟨-, hwrite⟩ <;> simp only [storeTo, hwrite] at h <;> cases h <;>
    exact ⟨hmem, fun _ => rfl, fun _ => rfl⟩

theorem untouched_of_storeHl {f : Form} {c : Config} {delta : Int} {s t : State} (hf : storesForm f = true)
    (h : storeAHl c delta s = .next t) : Untouched f s t := by
  have hmem : storesForm f = false → t.mem = s.mem := fun hno => absurd (hf.symm.trans hno) (by decide)
  rcases memWrite_cases c s (wordAddr (s.pair .hl)) s.a with ⟨-, hwrite⟩ | ⟨-, hwrite⟩ <;>
    simp only [storeAHl, storeTo, hwrite, thenHl] at h <;> cases h <;> exact ⟨hmem, fun _ => rfl, fun _ => rfl⟩

/-- A push and what follows it leave F. -/
theorem f_of_push {c : Config} {w : Word} {g : State → State} {s t : State} (hg : ∀ u, (g u).f = u.f)
    (h : commit s ((push c w s).map g) = .next t) : t.f = s.f := by
  rcases push_cases c w s with ⟨-, -, hpush⟩ | ⟨-, hpush⟩ | ⟨-, -, hpush⟩ <;> rw [hpush] at h <;> cases h
  · exact hg _
  · rfl
  · rfl

/-- A pop and what follows it leave Memory, and F where what follows does. -/
theorem mem_and_f_of_pop {c : Config} {g : Word × State → State} {s t : State} {P : Prop}
    (hmem : ∀ w u, (g (w, u)).mem = u.mem) (hf : P → ∀ w u, (g (w, u)).f = u.f)
    (h : commit s ((pop c s).map g) = .next t) : t.mem = s.mem ∧ (P → t.f = s.f) := by
  rcases pop_cases c s with ⟨-, -, hpop⟩ | ⟨-, hpop⟩ | ⟨-, -, hpop⟩ <;> rw [hpop] at h <;> cases h
  · exact ⟨hmem _ _, fun hp => hf hp _ _⟩
  · exact ⟨rfl, fun _ => rfl⟩
  · exact ⟨rfl, fun _ => rfl⟩

theorem ne_sp_of_writesSp {rr : Reg16} (h : writesSp (.incRr rr) = false) : rr ≠ .sp := by
  rintro rfl
  cases h

/-- What every form leaves. -/
theorem runForm_untouched {c : Config} {f : Form} {s t : State} (h : runForm c f s = .next t) : Untouched f s t := by
  cases f with
  | incR | decR | xorR | cpN | bitBR | rla | rlR =>
    cases h
    exact ⟨fun _ => by simp [rotated], nofun, fun _ => by simp [rotated]⟩
  | incRr rr =>
    cases h
    exact ⟨fun _ => by simp, fun _ => by simp, fun hsp => State.setReg16_sp_of_ne s _ (ne_sp_of_writesSp hsp)⟩
  | ldRrNn rr nn =>
    cases h
    refine ⟨fun _ => by simp, fun _ => by simp, fun hsp => State.setReg16_sp_of_ne s _ ?_⟩
    rintro rfl
    cases hsp
  | ldRR | ldRN =>
    cases h
    exact .of_eq (by simp) (by simp) (by simp)
  | ldRAtHl | ldAAtBc | ldAAtDe | ldhAAtN | ldAAtC | ldAAtNn => exact untouched_of_load h
  | ldAAtHlInc | ldAAtHlDec => exact untouched_of_loadHl h
  | ldAtHlR | ldAtBcA | ldAtDeA | ldhAtNA | ldAtCA | ldAtNnA => exact untouched_of_store rfl h
  | ldAtHlIncA | ldAtHlDecA => exact untouched_of_storeHl rfl h
  | push p => exact ⟨nofun, fun _ => f_of_push (g := (·.advance 1)) (fun _ => rfl) h, nofun⟩
  | call nn => exact ⟨nofun, fun _ => f_of_push (g := (·.jump nn)) (fun _ => rfl) h, nofun⟩
  | pop p =>
    obtain ⟨hmem, hf⟩ := mem_and_f_of_pop (P := writesFlags (.pop p) = false) (fun _ _ => by simp)
      (fun hp _ _ => by
      cases p with
      | af => cases hp
      | bc | de | hl => rfl) h
    exact ⟨fun _ => hmem, hf, nofun⟩
  | ret =>
    obtain ⟨hmem, hf⟩ := mem_and_f_of_pop (P := True) (fun _ _ => rfl) (fun _ _ _ => rfl) h
    exact ⟨fun _ => hmem, fun _ => hf trivial, nofun⟩
  | jrCc cc e =>
    simp only [runForm, jumpRelIf] at h
    split at h <;> cases h <;> exact .of_eq rfl rfl rfl
  | jr | jp =>
    cases h
    exact .of_eq rfl rfl rfl

/-- Settles O40: every form's Memory, F and SP outside its rows of the tables. -/
theorem onlyTheseWrite : Obligations.OnlyTheseWrite := by
  unfold Obligations.OnlyTheseWrite
  intro i s t h
  rw [exec_eq_runForm] at h
  obtain ⟨hmem, hf, hsp⟩ := runForm_untouched h
  exact ⟨fun hno => bytesKept_of_mem (hmem hno) [], hf, hsp⟩

/-! ## A state with another byte in F -/

/-- The state with a byte in F. -/
def State.withF (s : State) (v : Byte) : State := { s with f := v }

@[simp] theorem State.withF_reg (s : State) (v : Byte) (r : Reg8) : (s.withF v).reg r = s.reg r := by cases r <;> rfl

@[simp] theorem State.withF_setReg (s : State) (v b : Byte) (r : Reg8) :
    (s.withF v).setReg r b = (s.setReg r b).withF v := by cases r <;> rfl

@[simp] theorem State.withF_setReg16 (s : State) (v : Byte) (rr : Reg16) (w : Word) :
    (s.withF v).setReg16 rr w = (s.setReg16 rr w).withF v := by cases rr <;> rfl

@[simp] theorem State.withF_reg16 (s : State) (v : Byte) (rr : Reg16) : (s.withF v).reg16 rr = s.reg16 rr := by
  cases rr <;> rfl

@[simp] theorem State.withF_advance (s : State) (v : Byte) (len : Nat) :
    (s.withF v).advance len = (s.advance len).withF v := rfl

/-- Writing all flags forgets what F held. -/
@[simp] theorem State.withF_setFlags (s : State) (v : Byte) (p : FlagPos) (z n h c : Bool) :
    (s.withF v).setFlags p z n h c = s.setFlags p z n h c := rfl

/-- An answer with a byte in F. -/
def Result.withF (v : Byte) : Result → Result
  | .next t => .next (t.withF v)
  | .fault r => .fault r
  | .refused r => .refused r

theorem commit_withF (s : State) (v : Byte) (x : Access State) :
    commit (s.withF v) (x.map (·.withF v)) = Result.withF v (commit s x) := by
  cases x <;> rfl

/-! ## The accesses do not read F -/

section
variable (c : Config) (p : FlagPos) (s : State) (v : Byte)

theorem memRead_withF (addr : Int) : memRead { c with flagPos := p } (s.withF v) addr = memRead c s addr := rfl

theorem memWrite_withF (addr : Int) (b : Byte) :
    memWrite { c with flagPos := p } (s.withF v) addr b = (memWrite c s addr b).map (·.withF v) := by
  rcases memWrite_cases c s addr b with ⟨hin, h⟩ | ⟨hout, h⟩ <;> rw [h]
  · exact memWrite_of_inRange (c := { c with flagPos := p }) hin
  · exact memWrite_of_not_inRange (c := { c with flagPos := p }) hout

theorem loadFrom_withF (r : Reg8) (addr : Int) (len : Nat) :
    loadFrom { c with flagPos := p } r addr len (s.withF v) = (loadFrom c r addr len s).map (·.withF v) := by
  unfold loadFrom
  rw [memRead_withF]
  cases memRead c s addr with
  | ok b => simp [Except.map]
  | error k => rfl

theorem storeTo_withF (addr : Int) (b : Byte) (len : Nat) :
    storeTo { c with flagPos := p } addr b len (s.withF v) = (storeTo c addr b len s).map (·.withF v) := by
  unfold storeTo
  rw [memWrite_withF]
  cases memWrite c s addr b <;> rfl

theorem thenHl_withF (hl : Word) (delta : Int) (x : Access State) :
    thenHl hl delta (x.map (·.withF v)) = (thenHl hl delta x).map (·.withF v) := by
  cases x <;> rfl

theorem push_withF (w : Word) : push { c with flagPos := p } w (s.withF v) = (push c w s).map (·.withF v) := by
  unfold push memWrite16
  rw [show pushAddr (s.withF v) = pushAddr s from rfl, memWrite_withF]
  cases memWrite c s (pushAddr s) w.low with
  | error k => rfl
  | ok t =>
    simp only [Except.map]
    rw [memWrite_withF]
    cases memWrite c t (pushAddr s + 1) w.high <;> rfl

theorem pop_withF :
    pop { c with flagPos := p } (s.withF v) = (pop c s).map fun wt => (wt.1, wt.2.withF v) := by
  unfold pop
  rw [show memRead16 { c with flagPos := p } (s.withF v) (popAddr (s.withF v)) = memRead16 c s (popAddr s) from rfl]
  cases memRead16 c s (popAddr s) <;> rfl

theorem commit_loadFrom_withF (r : Reg8) (addr : Int) (len : Nat) :
    commit (s.withF v) (loadFrom { c with flagPos := p } r addr len (s.withF v)) =
      Result.withF v (commit s (loadFrom c r addr len s)) := by
  rw [loadFrom_withF, commit_withF]

theorem commit_storeTo_withF (addr : Int) (b : Byte) (len : Nat) :
    commit (s.withF v) (storeTo { c with flagPos := p } addr b len (s.withF v)) =
      Result.withF v (commit s (storeTo c addr b len s)) := by
  rw [storeTo_withF, commit_withF]

theorem loadAHl_withF (delta : Int) :
    loadAHl { c with flagPos := p } delta (s.withF v) = Result.withF v (loadAHl c delta s) := by
  unfold loadAHl
  rw [loadFrom_withF, thenHl_withF, commit_withF]
  rfl

theorem storeAHl_withF (delta : Int) :
    storeAHl { c with flagPos := p } delta (s.withF v) = Result.withF v (storeAHl c delta s) := by
  unfold storeAHl
  rw [storeTo_withF, thenHl_withF, commit_withF]
  rfl

/-- A push and what follows it, where that does not read F. -/
theorem commit_push_withF (w : Word) {g : State → State} (hg : ∀ t, g (t.withF v) = (g t).withF v) :
    commit (s.withF v) ((push { c with flagPos := p } w (s.withF v)).map g) =
      Result.withF v (commit s ((push c w s).map g)) := by
  rw [push_withF]
  cases push c w s with
  | error k => rfl
  | ok t => exact congrArg Host.Outcome.next (hg t)

/-- A pop and what follows it, where that does not read F. -/
theorem commit_pop_withF {g : Word × State → State} (hg : ∀ w t, g (w, t.withF v) = (g (w, t)).withF v) :
    commit (s.withF v) ((pop { c with flagPos := p } (s.withF v)).map g) =
      Result.withF v (commit s ((pop c s).map g)) := by
  rw [pop_withF]
  cases pop c s with
  | error k => rfl
  | ok wt => exact congrArg Host.Outcome.next (hg wt.1 wt.2)

end

/-! ## The forms, run with another byte in F and other places of the flags -/

/-- A form that writes no flag, but `PUSH AF`, does the same to everything but F, which it leaves, if the conditions
hold alike. -/
theorem runForm_withF {c : Config} {p : FlagPos} {f : Form} {s : State} {v : Byte} (hflags : writesFlags f = false)
    (hpush : f ≠ .push .af) (hcond : ∀ cc, (s.withF v).holdsAt p cc = s.holdsAt c.flagPos cc) :
    runForm { c with flagPos := p } f (s.withF v) = Result.withF v (runForm c f s) := by
  cases f with
  | incR | decR | xorR | cpN | bitBR | rla | rlR => cases hflags
  | incRr rr => simp [runForm, incReg16, Result.withF]
  | ldRR dst src => simp [runForm, copyReg, Result.withF]
  | ldRN r n => simp [runForm, loadImm, Result.withF]
  | ldRrNn rr nn => simp [runForm, loadImm16, Result.withF]
  | ldRAtHl | ldAAtBc | ldAAtDe | ldhAAtN | ldAAtC | ldAAtNn => exact commit_loadFrom_withF c p s v _ _ _
  | ldAtHlR r =>
    simp only [runForm, storeAtHl, State.withF_reg]
    exact commit_storeTo_withF c p s v _ _ _
  | ldAtBcA | ldAtDeA | ldhAtNA | ldAtCA | ldAtNnA => exact commit_storeTo_withF c p s v _ _ _
  | ldAAtHlInc | ldAAtHlDec => exact loadAHl_withF c p s v _
  | ldAtHlIncA | ldAtHlDecA => exact storeAHl_withF c p s v _
  | push q =>
    cases q with
    | af => exact absurd rfl hpush
    | bc | de | hl => exact commit_push_withF c p s v _ fun _ => rfl
  | pop q =>
    cases q with
    | af => cases hflags
    | bc | de | hl => exact commit_pop_withF c p s v fun _ _ => rfl
  | call nn => exact commit_push_withF c p s v _ fun _ => rfl
  | ret => exact commit_pop_withF c p s v fun _ _ => rfl
  | jrCc cc e =>
    simp only [runForm, jumpRelIf, hcond]
    split <;> rfl
  | jr | jp => rfl

/-- A rotate writes the same four flags into the same state, whatever their places and whatever else F held. -/
theorem exists_rotated_setFlags (c : Config) (r : Reg8) (s : State) :
    ∃ (u : State) (z n h cy : Bool), ∀ (p : FlagPos) (v : Byte), (s.withF v).flagAt p .c = s.flagAt c.flagPos .c →
      rotated { c with flagPos := p } r (s.withF v) = u.setFlags p z n h cy := by
  refine ⟨s.setReg r (rotateLeft (s.reg r) (s.flagAt c.flagPos .c)),
    isZero (rotateLeft (s.reg r) (s.flagAt c.flagPos .c)), false, false, carryRotate (s.reg r), fun p v hc => ?_⟩
  simp only [rotated, State.withF_reg, State.withF_setReg, State.withF_setFlags, hc]

/-- A form that computes the flags writes the same four into the same state, whatever their places and whatever F held,
if the carry is the same. -/
theorem exists_runForm_setFlags {f : Form} (hflags : writesFlags f = true) (hpop : f ≠ .pop .af) (c : Config)
    (s : State) :
    ∃ (u : State) (z n h cy : Bool), ∀ (p : FlagPos) (v : Byte), (s.withF v).flagAt p .c = s.flagAt c.flagPos .c →
      runForm { c with flagPos := p } f (s.withF v) = .next (u.setFlags p z n h cy) := by
  cases f with
  | incR r =>
    refine ⟨(s.setReg r (s.reg r + 1)).advance 1, isZero (s.reg r + 1), false, halfCarryInc (s.reg r),
      s.flagAt c.flagPos .c, fun p v hc => ?_⟩
    simp only [runForm, incReg, State.withF_reg, State.withF_setReg, State.withF_setFlags, hc]
    rfl
  | decR r =>
    refine ⟨(s.setReg r (s.reg r - 1)).advance 1, isZero (s.reg r - 1), true, halfBorrowDec (s.reg r),
      s.flagAt c.flagPos .c, fun p v hc => ?_⟩
    simp only [runForm, decReg, State.withF_reg, State.withF_setReg, State.withF_setFlags, hc]
    rfl
  | xorR r =>
    refine ⟨(s.setReg .a (s.a ^^^ s.reg r)).advance 1, isZero (s.a ^^^ s.reg r), false, false, false, fun p v _ => ?_⟩
    simp only [runForm, xorReg, State.withF_reg, State.withF_setReg, State.withF_setFlags]
    rfl
  | cpN n =>
    exact ⟨s.advance 2, decide (s.a = n), true, halfBorrowCp s.a n, borrowCp s.a n, fun _ _ _ => rfl⟩
  | bitBR b r =>
    refine ⟨s.advance 2, !(s.reg r).getLsbD b.val, false, true, s.flagAt c.flagPos .c, fun p v hc => ?_⟩
    simp only [runForm, bitTest, State.withF_reg, State.withF_setFlags, hc]
    rfl
  | rla =>
    obtain ⟨u, z, n, h, cy, key⟩ := exists_rotated_setFlags c .a s
    refine ⟨u.advance 1, z, n, h, cy, fun p v hc => ?_⟩
    simp only [runForm, rotateLeftA, key p v hc]
    rfl
  | rlR r =>
    obtain ⟨u, z, n, h, cy, key⟩ := exists_rotated_setFlags c r s
    refine ⟨u.advance 2, z, n, h, cy, fun p v hc => ?_⟩
    simp only [runForm, rlReg, key p v hc]
    rfl
  | pop q =>
    cases q with
    | af => exact absurd rfl hpop
    | bc | de | hl => cases hflags
  | _ => cases hflags

/-- `POP AF` completes with the popped F whatever F held, or faults. -/
theorem popAf_withF (c : Config) (s : State) (v : Byte) :
    (∃ t, popPair c .af s = .next t ∧ popPair c .af (s.withF v) = .next t) ∨
    (∃ k, popPair c .af s = .next (takeEvent s (.indexFault k)) ∧
      popPair c .af (s.withF v) = .next ((takeEvent s (.indexFault k)).withF v)) := by
  have hpop : pop c (s.withF v) = (pop c s).map fun wt => (wt.1, wt.2.withF v) := pop_withF c c.flagPos s v
  simp only [popPair, hpop]
  cases pop c s with
  | ok wt => exact Or.inl ⟨_, rfl, rfl⟩
  | error k => exact Or.inr ⟨k, rfl, rfl⟩

/-- The conditions hold alike where Z and C are alike, each under its own places. -/
theorem State.holdsAt_congr_pos {p q : FlagPos} {s t : State} (hz : s.flagAt p .z = t.flagAt q .z)
    (hc : s.flagAt p .c = t.flagAt q .c) (cc : Cond) : s.holdsAt p cc = t.holdsAt q cc := by
  cases cc with
  | nz => exact congrArg not hz
  | z => exact hz
  | nc => exact congrArg not hc
  | c => exact hc

/-- Settles O41: a form that writes no flag reads Z and C alone; one that does computes them from C and the registers,
or pops them. -/
theorem onlyPushAfReadsNAndH : Obligations.OnlyPushAfReadsNAndH := by
  unfold Obligations.OnlyPushAfReadsNAndH
  intro i s t v hpush hz hc h
  rw [exec_eq_runForm] at h ⊢
  cases hflags : writesFlags i.form with
  | false =>
    have hrun := runForm_withF (c := Config.decided) (p := FlagPos.decided) hflags hpush
      (State.holdsAt_congr_pos (s := s.withF v) hz hc)
    rw [h] at hrun
    exact ⟨t.withF v, hrun, rfl, fun _ => rfl, nofun⟩
  | true =>
    by_cases hpop : i.form = .pop .af
    · rw [hpop] at h ⊢
      rcases popAf_withF Config.decided s v with ⟨u, hs, hv⟩ | ⟨k, hs, hv⟩ <;> cases hs.symm.trans h
      · exact ⟨t, hv, rfl, nofun, fun _ _ _ => rfl⟩
      · exact ⟨_, hv, rfl, nofun, fun _ _ hrun => absurd hrun (Event.runState_ne_fetching (.indexFault k))⟩
    · obtain ⟨u, z, n, hh, cy, key⟩ := exists_runForm_setFlags hflags hpop Config.decided s
      cases (key FlagPos.decided s.f rfl).symm.trans h
      exact ⟨_, key FlagPos.decided v hc, rfl, nofun, fun _ _ _ => rfl⟩

/-- Settles O60: the flags written read back alike at either places, and a form that writes none leaves both F. -/
theorem flagPositionsHidden : Obligations.FlagPositionsHidden := by
  unfold Obligations.FlagPositionsHidden
  intro c p hc hp i s t v hpush hpop halike h
  have hv : ∀ x, (s.withF v).flagAt p x = s.flagAt c.flagPos x := halike
  cases hflags : writesFlags i.form with
  | false =>
    have hrun := runForm_withF hflags hpush (State.holdsAt_congr_pos (hv .z) (hv .c))
    rw [show runForm c i.form s = .next t from h] at hrun
    refine ⟨t.withF v, hrun, rfl, fun x => (hv x).trans ?_⟩
    rw [State.flagAt, State.flagAt, (runForm_untouched h).flags hflags]
  | true =>
    obtain ⟨u, z, n, hh, cy, key⟩ := exists_runForm_setFlags hflags hpop c s
    cases (key c.flagPos s.f rfl).symm.trans h
    refine ⟨_, key p v (hv .c), rfl, fun x => ?_⟩
    rw [State.flagAt_setFlags hp, State.flagAt_setFlags hc]

end Sys2Proof.Machine

/-! PROOFS about the fetch (30_encoding R80, R81, R85, 60_exceptions R193 to R196): the bytes at PC, an instruction that
runs beyond Memory, the faults of either memory size, and the statements they settle. -/

namespace Sys2Proof

/-! ## Instructions cut off by the end of the bytes -/

/-- `short` names the number of the bytes that were there, two at most. -/
theorem decodeAt_eq_short {c : Config} {bytes : List Byte} {k : Nat} (h : decodeAt c bytes = .short k) :
    k = bytes.length ∧ k ≤ 2 := by
  match bytes with
  | [] => cases h; decide
  | op :: tail =>
    by_cases hop : op = cbByte
    · subst hop
      match tail with
      | [] => cases h; decide
      | sub :: rest => rw [decodeAt_cb_cons] at h; split at h <;> cases h
    · rw [decodeAt_of_ne c hop] at h
      cases hentry : primaryAt c op with
      | none => rw [hentry] at h; cases h
      | some entry =>
        simp only [hentry] at h
        rcases Nat.lt_or_ge tail.length entry.operands with hlt | hle
        · rw [Entry.take_of_lt hlt] at h
          cases h
          exact ⟨rfl, Nat.le_trans hlt entry.operands_le⟩
        · obtain ⟨i, rest, htake, -⟩ := Entry.take_of_le (order := c.imm16Order) hle
          rw [htake] at h; cases h

/-- An instruction's first bytes, too few of them, are answered by `short`. -/
theorem decode_of_truncated {i : Instr} {op : Byte} {tail : List Byte} (hhead : (encode i).head? = some op)
    (hlen : tail.length + 1 < (encode i).length) : decode (op :: tail) = .short (tail.length + 1) := by
  rcases encode_cases i with ⟨sub, hbytes, -⟩ | ⟨op', args, entry, hbytes, hop, hentry, hargs, -⟩ <;>
    rw [hbytes] at hhead hlen <;> cases hhead
  · simp only [List.length_cons, List.length_nil] at hlen
    rw [List.eq_nil_of_length_eq_zero (by omega : tail.length = 0)]
    exact decode_cb_nil
  · rw [decode_of_ne hop, hentry]
    exact Entry.take_of_lt (by simp only [List.length_cons] at hlen; omega)

end Sys2Proof

namespace Sys2Proof.Machine

/-! ## The bytes at PC -/

/-- Three bytes from PC on, or as many as there are. -/
theorem fetchBytes_eq_map_range {c : Config} {s : State} (h : s.pc.toNat < c.memSize) :
    fetchBytes c s = (List.range (min 3 (c.memSize - s.pc.toNat))).map fun k => s.byteAt (s.pc.toNat + k) := by
  rcases Nat.lt_trichotomy (s.pc.toNat + 2) c.memSize with h3 | h2 | h1
  · rw [fetchBytes_of_lt h3, Nat.min_eq_left (by omega)]; rfl
  · rw [fetchBytes_of_eq_two h2, show min 3 (c.memSize - s.pc.toNat) = 2 by omega]; rfl
  · rw [fetchBytes_of_eq_one (by omega), show min 3 (c.memSize - s.pc.toNat) = 1 by omega]; rfl

theorem length_fetchBytes {c : Config} {s : State} (h : s.pc.toNat < c.memSize) :
    (fetchBytes c s).length = min 3 (c.memSize - s.pc.toNat) := by
  rw [fetchBytes_eq_map_range h, List.length_map, List.length_range]

theorem getElem?_fetchBytes {c : Config} {s : State} {k : Nat} (hk : k < 3) (h : s.pc.toNat + k < c.memSize) :
    (fetchBytes c s)[k]? = some (s.byteAt (s.pc.toNat + k)) := by
  rw [fetchBytes_eq_map_range (by omega), List.getElem?_map, List.getElem?_range (by omega)]
  rfl

/-- Bytes that lie at PC, three at most, are fetched first. -/
theorem isPrefix_fetchBytes {c : Config} {s : State} {bytes : List Byte} (hthree : bytes.length ≤ 3)
    (hsize : s.pc.toNat + bytes.length ≤ c.memSize)
    (hbytes : ∀ k, k < bytes.length → bytes[k]? = some (s.byteAt (s.pc.toNat + k))) : bytes <+: fetchBytes c s := by
  rw [List.prefix_iff_getElem?]
  intro k hk
  rw [getElem?_fetchBytes (by omega) (by omega), ← hbytes k hk, List.getElem?_eq_getElem hk]

/-- Below the last byte of Memory two bytes are fetched at least. -/
theorem fetchBytes_head_two {c : Config} {s : State} (h : s.pc.toNat + 1 < c.memSize) :
    ∃ rest, fetchBytes c s = s.byteAt s.pc.toNat :: s.byteAt (s.pc.toNat + 1) :: rest := by
  rcases Nat.lt_or_ge (s.pc.toNat + 2) c.memSize with h3 | h2
  · exact ⟨_, fetchBytes_of_lt h3⟩
  · exact ⟨_, fetchBytes_of_eq_two (by omega)⟩

theorem length_encode_le_three (i : Instr) : (encode i).length ≤ 3 := by
  rw [length_encode]
  exact (Laws.FormInverse.len_bounds i.form).2

/-! ## What is fetched -/

theorem fetch_of_instr {c : Config} {s : State} {i : Instr} {rest : List Byte} (hpc : s.pc.toNat < c.memSize)
    (h : decodeAt c (fetchBytes c s) = .instr i rest) : fetch c s = .instr i := by
  rw [fetch, if_neg (Nat.not_le.2 hpc), h]

theorem fetch_of_unknown {c : Config} {s : State} {op : Byte} (hpc : s.pc.toNat < c.memSize)
    (h : decodeAt c (fetchBytes c s) = .unknown op) : fetch c s = .event (.unknownOpcode op s.pc) := by
  rw [fetch, if_neg (Nat.not_le.2 hpc), h]

theorem fetch_of_unimplemented {c : Config} {s : State} {sub : Byte} (hpc : s.pc.toNat < c.memSize)
    (h : decodeAt c (fetchBytes c s) = .unimplemented sub) : fetch c s = .event (.unimplementedOpcode sub s.pc) := by
  rw [fetch, if_neg (Nat.not_le.2 hpc), h]

/-- Where bytes are missing the fetch faults at the first address beyond Memory. -/
theorem fetch_of_short {c : Config} {s : State} {k : Nat} (hpc : s.pc.toNat < c.memSize)
    (h : decodeAt c (fetchBytes c s) = .short k) : fetch c s = .event (.indexFault c.memSize) := by
  obtain ⟨hk, htwo⟩ := decodeAt_eq_short h
  rw [length_fetchBytes hpc] at hk
  have haddr : wordAddr s.pc + k = c.memSize := by
    simp only [wordAddr]
    omega
  rw [fetch, if_neg (Nat.not_le.2 hpc), h, ← haddr]

/-- A fetch that faults does so at the first address beyond Memory. -/
theorem eq_memSize_of_fetch_indexFault {c : Config} {s : State} {k : Int} (h : fetch c s = .event (.indexFault k)) :
    k = c.memSize := by
  rcases fetch_cases c s with
    ⟨-, hf⟩ | ⟨hpc, ⟨i, rest, -, hf⟩ | ⟨op, -, hf⟩ | ⟨sub, -, hf⟩ | ⟨k', hdec, -⟩⟩
  · rw [hf] at h; cases h
  · rw [hf] at h; cases h
  · rw [hf] at h; cases h
  · rw [hf] at h; cases h
  · rw [fetch_of_short hpc hdec] at h; cases h; rfl

/-- An instruction that begins at PC and ends beyond Memory. -/
theorem fetch_of_truncated {c : Config} (hc : decodeAt c = decode) {s : State} {i : Instr}
    (hpc : s.pc.toNat < c.memSize) (hhead : (encode i).head? = some (s.byteAt s.pc.toNat))
    (hlong : c.memSize < s.pc.toNat + (encode i).length) : fetch c s = .event (.indexFault c.memSize) := by
  obtain ⟨tail, htail⟩ := fetchBytes_head hpc
  have hthree := length_encode_le_three i
  have hlen := length_fetchBytes hpc
  rw [htail, List.length_cons] at hlen
  exact fetch_of_short hpc (by rw [hc, htail]; exact decode_of_truncated hhead (by omega))

/-! ## The obligations about a step's instruction -/

/-- Settles O42: the fetch answers what decodes. -/
theorem stepRunsDecoded : Obligations.StepRunsDecoded := by
  unfold Obligations.StepRunsDecoded
  intro s i rest hs h
  exact ⟨rfl, stepWith_of_instr hs (fetch_of_instr s.pc.isLt h)⟩

/-- Settles O43: the instruction's bytes are fetched first, and decode whatever follows. -/
theorem stepRunsMemory : Obligations.StepRunsMemory := by
  unfold Obligations.StepRunsMemory
  intro s i hs hsize hbytes
  obtain ⟨rest, hrest⟩ := isPrefix_fetchBytes (c := Config.decided) (length_encode_le_three i) hsize hbytes
  refine stepWith_of_instr hs (fetch_of_instr (rest := rest) s.pc.isLt ?_)
  rw [← hrest]
  exact decode_encode_append i rest

/-- Settles O44: an opcode without an entry, a sub-opcode without one, an instruction cut off. -/
theorem decodeEvents : Obligations.DecodeEvents := by
  unfold Obligations.DecodeEvents
  intro s hs
  have hpc : s.pc.toNat < Config.decided.memSize := s.pc.isLt
  refine ⟨fun ⟨hop, hnone⟩ => ?_, fun ⟨hop, hnext, hnone⟩ => ?_, fun i hhead hlong => ?_⟩
  · obtain ⟨tail, htail⟩ := fetchBytes_head hpc
    refine stepWith_of_event hs (fetch_of_unknown hpc ?_)
    rw [htail]
    exact (decode_eq_unknown_iff _ _).2 ⟨hop, (primary_eq_none_iff hop).2 hnone⟩
  · obtain ⟨rest, hrest⟩ := fetchBytes_head_two (c := Config.decided) (s := s) hnext
    refine stepWith_of_event hs (fetch_of_unimplemented hpc ?_)
    rw [hrest, hop]
    exact (decode_eq_unimplemented_iff _ _).2 ((secondary_eq_none_iff _).2 hnone)
  · exact stepWith_of_event hs (fetch_of_truncated decodeAt_decided hpc hhead hlong)

/-- Settles O57: the stored byte is at the address that PC advances to. -/
theorem storeIsFetched : Obligations.StoreIsFetched := by
  unfold Obligations.StoreIsFetched
  intro s nn hwf hs hf hnn
  obtain ⟨t, ht, hbyte, -, -, -, hpc⟩ := exists_stored (f := .ldAtNnA nn) hwf (inRange_wordAddr nn) rfl
  have hnext : t.pc.toNat = nn.toNat := by
    rw [hpc, hnn]
    exact (BitVec.toNat_add s.pc 3).symm
  obtain ⟨tail, htail⟩ := fetchBytes_head (c := Config.decided) (s := t) t.pc.isLt
  refine ⟨t, (stepWith_of_instr hs hf).trans ht, ?_⟩
  rw [htail, hnext]
  exact congrArg some hbyte

/-! ## The obligations about faults -/

/-- Every address but a stack form's exists at 65536 bytes, so a fault is the stack's, at SP's ends. -/
theorem firstFault_accessedAddrs_decided {f : Form} {s : State} {k : Int}
    (h : firstFault Config.decided (accessedAddrs s f) = some k) :
    (k = -1 ∧ s.sp = 0 ∧ ((∃ p, f = .push p) ∨ ∃ nn, f = .call nn)) ∨
    (k = 0x10000 ∧ 65534 ≤ s.sp.toNat ∧ ((∃ p, f = .pop p) ∨ f = .ret)) := by
  have hpop : firstFault Config.decided [popAddr s, popAddr s + 1] = some k → k = 0x10000 ∧ 65534 ≤ s.sp.toNat := by
    rw [firstFault_pop_decided]
    split
    next hsp => exact fun e => ⟨(Option.some.inj e).symm, hsp⟩
    next => nofun
  have hword (w : Word) : firstFault Config.decided [wordAddr w] = none := if_pos (inRange_wordAddr w)
  have hzero (n : Byte) : firstFault Config.decided [zeroPageAddr n] = none := if_pos (inRange_zeroPageAddr n)
  cases f with
  | push p =>
    obtain ⟨hk, hsp⟩ := firstFault_push_decided h
    exact Or.inl ⟨hk, hsp, Or.inl ⟨p, rfl⟩⟩
  | call nn =>
    obtain ⟨hk, hsp⟩ := firstFault_push_decided h
    exact Or.inl ⟨hk, hsp, Or.inr ⟨nn, rfl⟩⟩
  | pop p =>
    obtain ⟨hk, hsp⟩ := hpop h
    exact Or.inr ⟨hk, hsp, Or.inl ⟨p, rfl⟩⟩
  | ret =>
    obtain ⟨hk, hsp⟩ := hpop h
    exact Or.inr ⟨hk, hsp, Or.inr rfl⟩
  | ldhAtNA | ldhAAtN | ldAtCA | ldAAtC => cases (hzero _).symm.trans h
  | ldRAtHl | ldAtHlR | ldAAtHlInc | ldAAtHlDec | ldAtHlIncA | ldAtHlDecA | ldAAtBc | ldAtBcA | ldAAtDe | ldAtDeA
  | ldAAtNn | ldAtNnA => cases (hword _).symm.trans h
  | incR | decR | incRr | xorR | cpN | bitBR | rla | rlR | ldRR | ldRN | ldRrNn | jrCc | jr | jp => cases h

/-- An instruction that ends the run at 65536 bytes is a stack form at an end of SP. -/
theorem exec_ended {i : Instr} {s t : State} (hs : s.run = .fetching) (h : exec i s = .next t)
    (ht : t.run ≠ .fetching) :
    (t.run = .faulted (-1) ∧ s.sp = 0 ∧ ((∃ p, i.form = .push p) ∨ ∃ nn, i.form = .call nn)) ∨
    (t.run = .faulted 0x10000 ∧ 65534 ≤ s.sp.toNat ∧ ((∃ p, i.form = .pop p) ∨ i.form = .ret)) := by
  rw [exec_eq_runForm] at h
  obtain ⟨k, hfirst, hrun⟩ := firstFault_of_ended hs h ht
  rw [hrun]
  rcases firstFault_accessedAddrs_decided hfirst with ⟨rfl, hstack⟩ | ⟨rfl, hstack⟩
  · exact Or.inl ⟨rfl, hstack⟩
  · exact Or.inr ⟨rfl, hstack⟩

/-- Settles O48: an instruction's fault is the stack's, and the fetch's is at the size of Memory. -/
theorem onlyStackFaults : Obligations.OnlyStackFaults := by
  unfold Obligations.OnlyStackFaults
  refine ⟨fun i s t hs h ht => exec_ended hs h ht, fun s t addr hs h hrun => ?_⟩
  rcases stepWith_cases Config.decided exec s with ⟨hended, -⟩ | ⟨-, i, -, hstep⟩ | ⟨-, ev, hf, hstep⟩
  · exact absurd hs hended
  · rcases exec_ended hs (hstep.symm.trans h) (by rw [hrun]; nofun) with ⟨hk, -⟩ | ⟨hk, -⟩ <;>
      cases hk.symm.trans hrun
    · exact Or.inl rfl
    · exact Or.inr rfl
  · cases hstep.symm.trans h
    cases ev with
    | indexFault k =>
      cases hrun
      exact Or.inr (eq_memSize_of_fetch_indexFault hf)
    | halted | unknownOpcode | unimplementedOpcode => cases hrun

/-- Forms that access the same addresses fault alike, at the first that does not exist. -/
theorem faultsAt_of_accessedAddrs {c : Config} {s : State} {k : Int} {forms : List Form} (addrs : List Int)
    (hforms : forms.map (accessedAddrs s) = forms.map fun _ => addrs) (hk : firstFault c addrs = some k) :
    ∀ f ∈ forms, faultsAt c f k s := by
  intro f hf
  rw [faultsAt, execAt, form_instr]
  exact runForm_of_firstFault (by rw [List.map_inj_left.1 hforms f hf, hk])

/-- Settles O50: each group of forms by the addresses it accesses, and the fetch cut off at 65535 bytes. -/
theorem smallMemoryFaults : Obligations.SmallMemoryFaults := by
  unfold Obligations.SmallMemoryFaults
  intro s r p nn
  refine ⟨fun h => ?_, fun h => ?_, fun h => ?_, fun h => ?_, ?_, fun h => ?_, fun h => ?_, fun h => ?_, fun h => ?_,
    fun i hs hpc hhead hlong => stepWith_of_event hs (fetch_of_truncated decodeAt_small hpc hhead hlong)⟩
  · exact faultsAt_of_accessedAddrs [wordAddr (s.pair .hl)] rfl (by rw [h]; decide)
  · exact faultsAt_of_accessedAddrs [wordAddr (s.pair .bc)] rfl (by rw [h]; decide)
  · exact faultsAt_of_accessedAddrs [wordAddr (s.pair .de)] rfl (by rw [h]; decide)
  · exact faultsAt_of_accessedAddrs [zeroPageAddr s.c] rfl (by rw [h]; decide)
  · exact faultsAt_of_accessedAddrs [0xFFFF] rfl (by decide)
  · exact faultsAt_of_accessedAddrs [pushAddr s, pushAddr s + 1] rfl
      (by rw [pushAddr, h]; decide)
  · exact faultsAt_of_accessedAddrs [pushAddr s, pushAddr s + 1] rfl (firstFault_push _ h)
  · refine faultsAt_of_accessedAddrs [popAddr s, popAddr s + 1] rfl ?_
    rcases h with h | h <;> rw [popAddr, h] <;> decide
  · exact faultsAt_of_accessedAddrs [popAddr s, popAddr s + 1] rfl (by rw [popAddr, h]; decide)

end Sys2Proof.Machine
